-- ==== Sys2Proof/Word.lean ====
section
/-! DEFINITION. The word types of ISOTP-CORE: the fixed widths of spec rule R9 (00_scope.md). Every quantity of the block is
unsigned (R10, R12), so plain bit vectors carry the operators the rules use. -/

namespace Sys2Proof

/-- A byte: a data byte, BS, STmin, service, PID, SPEED (R9). -/
abbrev Byte := BitVec 8

/-- A 4-bit field: a PCI nibble, the sequence number, a flow status (R9). -/
abbrev Nibble := BitVec 4

/-- A payload length or a PBUF offset, 12 bits, 0..4095 (R9, R41). -/
abbrev Len := BitVec 12

/-- A CAN identifier, 11 bits (R9, R70). -/
abbrev CanId := BitVec 11

/-- The frame word `W[63:0] = d[0] ‖ … ‖ d[7]` of R11 and of `opcode_table.json`. -/
abbrev FrameWord := BitVec 64

end Sys2Proof
end

