-- ==== Sys2Proof/Config.lean ====
section
/-! DEFINITION. The build-time parameters of one instance of the block (00_scope.md R8, 92_eei_decisions.md D21, D31, D38). -/

namespace Sys2Proof

/-- The two roles of R2. A role is fixed for an instance at build time (D38). -/
inductive Role where
  /-- Issues requests and reassembles the responses. -/
  | tester
  /-- Answers requests and segments the responses. -/
  | simulator
deriving DecidableEq, Repr

/-- `BUF_CAP`, the number of bytes of the payload buffer (R8, R41). -/
abbrev bufCap : Nat := 4095

/-- The parameters of R8. `BUF_CAP` is the constant `bufCap`. They are no state of the block (R39): `State.cfg` carries them
because `step` takes a state only, and no step changes them. -/
structure Config where
  /-- `ROLE`. -/
  role       : Role
  /-- `TX_ID`, the identifier of every frame the block transmits. -/
  txId       : CanId
  /-- `RX_ID`, the only identifier the block does not filter out. -/
  rxId       : CanId
  /-- `FILL`, the byte of an encoded frame that carries no field. -/
  fill       : Byte
  /-- `RX_BS`, the block size the receiver's FC announces. -/
  rxBs       : Byte
  /-- `RX_STMIN`, the separation time the receiver's FC announces. -/
  rxStmin    : Byte
  /-- `HAS_TIMEOUT`. -/
  hasTimeout : Bool
  /-- `N_TIMEOUT_US`, in microseconds. -/
  nTimeoutUs : Nat
  /-- `VIN`, 17 bytes. -/
  vin        : Vector Byte 17
deriving DecidableEq, Repr

/-- The VIN "KMHC75LD0MU250580" of R8, its bytes as in §8 scenario 3. -/
def Config.defaultVin : Vector Byte 17 :=
  #v[0x4B, 0x4D, 0x48, 0x43, 0x37, 0x35, 0x4C, 0x44, 0x30, 0x4D, 0x55, 0x32, 0x35, 0x30, 0x35, 0x38, 0x30]

/-- A simulator with every default of R8. -/
def Config.simulator : Config where
  role := .simulator
  txId := 0x7E8
  rxId := 0x7DF
  fill := 0xAA
  rxBs := 0x00
  rxStmin := 0x0A
  hasTimeout := false
  nTimeoutUs := 1000000
  vin := Config.defaultVin

/-- A tester with every default of R8: the identifiers are the simulator's, exchanged. -/
def Config.tester : Config :=
  { Config.simulator with role := .tester, txId := 0x7DF, rxId := 0x7E8 }

end Sys2Proof
end

