-- ==== Sys2Proof/Syntax.lean ====
section
/-! DEFINITION. Frames, typed frames, and the instruction set: one constructor per row of spec/opcode_table.json
(30_encoding.md R74: "The frame encodings appear one row each"). A constructor carries the fields its row names; the bytes
that carry no field are ignored on receive (R69) and are no operands. -/

namespace Sys2Proof

/-- A CAN data field `d[0..7]`, exactly eight bytes (R42, R60). -/
structure Frame where
  d0 : Byte
  d1 : Byte
  d2 : Byte
  d3 : Byte
  d4 : Byte
  d5 : Byte
  d6 : Byte
  d7 : Byte
deriving DecidableEq, Repr

/-- The six payload bytes of a First Frame (R63). -/
structure Bytes6 where
  p0 : Byte
  p1 : Byte
  p2 : Byte
  p3 : Byte
  p4 : Byte
  p5 : Byte
deriving DecidableEq, Repr

/-- The seven bytes after the PCI of a Consecutive Frame (R64). -/
structure Bytes7 where
  p0 : Byte
  p1 : Byte
  p2 : Byte
  p3 : Byte
  p4 : Byte
  p5 : Byte
  p6 : Byte
deriving DecidableEq, Repr

/-- The flow statuses of a legal FC (R65). -/
inductive FlowStatus where
  /-- 0: continue to send. -/
  | cts
  /-- 1: wait for another FC. -/
  | wait
  /-- 2: overflow. -/
  | ovf
deriving DecidableEq, Repr

/-- The result type of `Decode` (40_frame_codec.md, before R75). -/
inductive TypedFrame where
  | sf (p : List Byte)
  | ff (total : Len) (p : Bytes6)
  | cf (seq : Nibble) (p : Bytes7)
  | fc (fs : FlowStatus) (bs stmin : Byte)
  | invalid
deriving DecidableEq, Repr

/-- The rows of spec/opcode_table.json, in the table's order. -/
inductive Instr where
  /-- SF_LEN0_INVALID (R76, R68 item 2). -/
  | sfLen0Invalid
  /-- SF_LEN8_15_INVALID, with the length 8..15 (R76, R68 item 3). -/
  | sfLen8To15Invalid (len : Nibble)
  /-- SF, with its 1..7 payload bytes (R62, R76). -/
  | sf (p : List Byte)
  /-- FF_SHORT_INVALID, with the total 0..7 (R77, R68 item 4). -/
  | ffShortInvalid (total : Len)
  /-- FF, with its total 8..4095 (R63, R77). -/
  | ff (total : Len) (p : Bytes6)
  /-- CF (R64, R78). -/
  | cf (seq : Nibble) (p : Bytes7)
  /-- FC_CTS (R65, R79). -/
  | fcCts (bs stmin : Byte)
  /-- FC_WAIT (R65, R79). -/
  | fcWait (bs stmin : Byte)
  /-- FC_OVF (R65, R79). -/
  | fcOvf (bs stmin : Byte)
  /-- FC_RSV_3_INVALID (R79, D8). -/
  | fcRsv3Invalid
  /-- FC_RSV_4_7_INVALID, with the flow status 4..7 (R79, D8). -/
  | fcRsv4To7Invalid (fs : Nibble)
  /-- FC_RSV_8_15_INVALID, with the flow status 8..15 (R79, D8). -/
  | fcRsv8To15Invalid (fs : Nibble)
  /-- PCI_4_7_INVALID, with the high nibble 4..7 (R80). -/
  | pci4To7Invalid (hn : Nibble)
  /-- PCI_8_F_INVALID, with the high nibble 8..15 (R80). -/
  | pci8ToFInvalid (hn : Nibble)
  /-- OBD_REQ_RPM: an SF of length 2..7 that starts 01 0C, with the bytes after the PID (R71, R109). -/
  | obdReqRpm (extra : List Byte)
  /-- OBD_REQ_SPEED: an SF of length 2..7 that starts 01 0D (R71, R110). -/
  | obdReqSpeed (extra : List Byte)
  /-- OBD_REQ_VIN: an SF of length 2..7 that starts 09 02 (R71, R111). -/
  | obdReqVin (extra : List Byte)
  /-- OBD_REQ_OTHER: an SF of length 2..7 with any other service and PID (R71, R112). -/
  | obdReqOther (service pid : Byte) (extra : List Byte)
  /-- OBD_REQ_SHORT: an SF of length 1 (R118, D14). -/
  | obdReqShort (p0 : Byte)
  /-- OBD_RSP_RPM: the SF 41 0C hi lo (R72, R109). -/
  | obdRspRpm (rpm : BitVec 16)
  /-- OBD_RSP_SPEED: the SF 41 0D speed (R72, R110). -/
  | obdRspSpeed (speed : Byte)
  /-- OBD_RSP_VIN_FF: the FF of total 20 that starts 49 02 01, with VIN bytes 0..2 (R72, R111). -/
  | obdRspVinFf (v0 v1 v2 : Byte)
deriving DecidableEq, Repr

end Sys2Proof
end

