-- ==== Sys2Proof/WellFormed.lean ====
section
/-! DEFINITION. Which instructions a frame can stand for: the "legal values" columns of 30_encoding.md R62 to R65 and R68, and
the constraints of the obd rows of spec/opcode_table.json. -/

namespace Sys2Proof

/-- The (service, PID) pairs the dispatcher answers (R72, R107). -/
def obdSupported (service pid : Byte) : Bool :=
  (service == 0x01 && pid == 0x0C) || (service == 0x01 && pid == 0x0D) || (service == 0x09 && pid == 0x02)

/-- The fields of an instruction lie in the ranges its row gives. -/
def Instr.wf : Instr → Bool
  | .sfLen0Invalid => true
  | .sfLen8To15Invalid len => decide (8 ≤ len.toNat)
  | .sf p => decide (1 ≤ p.length) && decide (p.length ≤ 7)
  | .ffShortInvalid total => decide (total.toNat ≤ 7)
  | .ff total _ => decide (8 ≤ total.toNat)
  | .cf _ _ => true
  | .fcCts _ _ => true
  | .fcWait _ _ => true
  | .fcOvf _ _ => true
  | .fcRsv3Invalid => true
  | .fcRsv4To7Invalid fs => decide (4 ≤ fs.toNat) && decide (fs.toNat ≤ 7)
  | .fcRsv8To15Invalid fs => decide (8 ≤ fs.toNat)
  | .pci4To7Invalid hn => decide (4 ≤ hn.toNat) && decide (hn.toNat ≤ 7)
  | .pci8ToFInvalid hn => decide (8 ≤ hn.toNat)
  | .obdReqRpm extra => decide (extra.length ≤ 5)
  | .obdReqSpeed extra => decide (extra.length ≤ 5)
  | .obdReqVin extra => decide (extra.length ≤ 5)
  | .obdReqOther service pid extra => !obdSupported service pid && decide (extra.length ≤ 5)
  | .obdReqShort _ => true
  | .obdRspRpm _ => true
  | .obdRspSpeed _ => true
  | .obdRspVinFf _ _ _ => true

end Sys2Proof
end

