-- ==== Sys2Proof/Decode.lean ====
section
/-! DEFINITION. The frame codec (40_frame_codec.md R75 to R84) and the classification of frames into the rows of
spec/opcode_table.json (30_encoding.md R74), then the encoder of instructions.

`Decode` of R75 is `typedFrame`. `decode v d` names the ROW a frame falls under: the frame rows classify every frame, and the obd
rows apply on top of a frame already classified (R74). Which obd rows apply depends on who receives the frame, so `decode` takes
the receiver's view: a simulator at LISTEN reads requests, a tester at RX_WAIT reads responses, and a sender at AWAIT_FC reads
the frame rows alone. -/

namespace Sys2Proof

/-! ## Bit fields (R11) -/

/-- `b[7:4]`, the frame type of a first byte (R60). -/
def hiNibble (b : Byte) : Nibble := b.extractLsb' 4 4

/-- `b[3:0]`. -/
def loNibble (b : Byte) : Nibble := b.extractLsb' 0 4

/-- `hi ‖ lo`. -/
def joinNibbles (hi lo : Nibble) : Byte := hi ++ lo

/-- `v[15:8]`, the byte the wire carries first (R46). -/
def highByte (v : BitVec 16) : Byte := v.extractLsb' 8 8

/-- `v[7:0]`. -/
def lowByte (v : BitVec 16) : Byte := v.extractLsb' 0 8

/-- `hi ‖ lo`, big-endian as R46 says. -/
def joinBytes (hi lo : Byte) : BitVec 16 := hi ++ lo

/-! ## Frames as lists and as words -/

/-- `d[0], …, d[7]`. -/
def Frame.toList (d : Frame) : List Byte := [d.d0, d.d1, d.d2, d.d3, d.d4, d.d5, d.d6, d.d7]

def Bytes6.toList (p : Bytes6) : List Byte := [p.p0, p.p1, p.p2, p.p3, p.p4, p.p5]

def Bytes7.toList (p : Bytes7) : List Byte := [p.p0, p.p1, p.p2, p.p3, p.p4, p.p5, p.p6]

/-- `d[1..8]`. -/
def Frame.from1 (d : Frame) : Bytes7 := ⟨d.d1, d.d2, d.d3, d.d4, d.d5, d.d6, d.d7⟩

/-- `d[2..8]`. -/
def Frame.from2 (d : Frame) : Bytes6 := ⟨d.d2, d.d3, d.d4, d.d5, d.d6, d.d7⟩

/-- The frame of a frame word: `d[0] = W[63:56]`, …, `d[7] = W[7:0]` (R11). -/
def Frame.ofWord (w : FrameWord) : Frame where
  d0 := w.extractLsb' 56 8
  d1 := w.extractLsb' 48 8
  d2 := w.extractLsb' 40 8
  d3 := w.extractLsb' 32 8
  d4 := w.extractLsb' 24 8
  d5 := w.extractLsb' 16 8
  d6 := w.extractLsb' 8 8
  d7 := w.extractLsb' 0 8

/-- The frame word `d[0] ‖ … ‖ d[7]` (R11). -/
def Frame.toWord (d : Frame) : FrameWord :=
  d.d0 ++ d.d1 ++ d.d2 ++ d.d3 ++ d.d4 ++ d.d5 ++ d.d6 ++ d.d7

/-! ## The fields of a received frame -/

/-- The frame type `d[0][7:4]` (R60). -/
def Frame.kind (d : Frame) : Nibble := hiNibble d.d0

/-- `SF_DL`, zero-extended (R62); read as a number, it is the length of the payload. -/
def sfLen (d : Frame) : Nat := (loNibble d.d0).toNat

/-- `d[1..1+len]` (R76). -/
def sfPayload (d : Frame) : List Byte := d.from1.toList.take (sfLen d)

/-- The First Frame's total in the shift form that R77 makes mandatory (conflict C6). -/
def ffTotal (d : Frame) : Len := ((loNibble d.d0).setWidth 12 <<< 8) ||| d.d1.setWidth 12

/-! ## `Decode` of R75 -/

/-- R76. -/
def typedSf (d : Frame) : TypedFrame :=
  if sfLen d = 0 ∨ 7 < sfLen d then .invalid else .sf (sfPayload d)

/-- R77. -/
def typedFf (d : Frame) : TypedFrame :=
  if (ffTotal d).toNat ≤ 7 then .invalid else .ff (ffTotal d) d.from2

/-- R79: flow statuses 3..15 are invalid (D8). -/
def typedFc (d : Frame) : TypedFrame :=
  if loNibble d.d0 = 0 then .fc .cts d.d1 d.d2
  else if loNibble d.d0 = 1 then .fc .wait d.d1 d.d2
  else if loNibble d.d0 = 2 then .fc .ovf d.d1 d.d2
  else .invalid

/-- `Decode(d)` of R75, with R76 to R80. -/
def typedFrame (d : Frame) : TypedFrame :=
  if d.kind = 0 then typedSf d
  else if d.kind = 1 then typedFf d
  else if d.kind = 2 then .cf (loNibble d.d0) d.from1
  else if d.kind = 3 then typedFc d
  else .invalid

/-! ## The row of a frame -/

/-- Who reads the frame, and so which obd rows apply on top of the frame rows (R74). -/
inductive View where
  /-- The frame rows alone: a sender that awaits a flow control. -/
  | frame
  /-- The request rows on top: a simulator at LISTEN (R118). -/
  | request
  /-- The response rows on top: a tester at RX_WAIT (R116). -/
  | response
deriving DecidableEq, Repr

/-- The request row of a Single Frame's payload (rows OBD_REQ_…; R107, R118). -/
def requestRow (p : List Byte) : Instr :=
  match p with
  | [] => .sf []
  | [p0] => .obdReqShort p0
  | service :: pid :: extra =>
    if service = 0x01 ∧ pid = 0x0C then .obdReqRpm extra
    else if service = 0x01 ∧ pid = 0x0D then .obdReqSpeed extra
    else if service = 0x09 ∧ pid = 0x02 then .obdReqVin extra
    else .obdReqOther service pid extra

/-- The response row of a Single Frame's payload (rows OBD_RSP_RPM, OBD_RSP_SPEED; R72). -/
def responseRow (p : List Byte) : Instr :=
  match p with
  | [a, b, c] => if a = 0x41 ∧ b = 0x0D then .obdRspSpeed c else .sf [a, b, c]
  | [a, b, c, e] => if a = 0x41 ∧ b = 0x0C then .obdRspRpm (joinBytes c e) else .sf [a, b, c, e]
  | p => .sf p

/-- Row of a frame of type 0x0 (R76). -/
def decodeSf (v : View) (d : Frame) : Instr :=
  if sfLen d = 0 then .sfLen0Invalid
  else if 7 < sfLen d then .sfLen8To15Invalid (loNibble d.d0)
  else match v with
    | .frame => .sf (sfPayload d)
    | .request => requestRow (sfPayload d)
    | .response => responseRow (sfPayload d)

/-- Row of a frame of type 0x1 (R77; row OBD_RSP_VIN_FF is total 20 and 49 02 01). -/
def decodeFf (v : View) (d : Frame) : Instr :=
  if (ffTotal d).toNat ≤ 7 then .ffShortInvalid (ffTotal d)
  else if v = .response ∧ ffTotal d = 20 ∧ d.d2 = 0x49 ∧ d.d3 = 0x02 ∧ d.d4 = 0x01 then .obdRspVinFf d.d5 d.d6 d.d7
  else .ff (ffTotal d) d.from2

/-- Row of a frame of type 0x3 (R79). -/
def decodeFc (d : Frame) : Instr :=
  if loNibble d.d0 = 0 then .fcCts d.d1 d.d2
  else if loNibble d.d0 = 1 then .fcWait d.d1 d.d2
  else if loNibble d.d0 = 2 then .fcOvf d.d1 d.d2
  else if loNibble d.d0 = 3 then .fcRsv3Invalid
  else if (loNibble d.d0).toNat ≤ 7 then .fcRsv4To7Invalid (loNibble d.d0)
  else .fcRsv8To15Invalid (loNibble d.d0)

/-- The row a frame falls under, for a receiver with the given view (R61, R74). -/
def decode (v : View) (d : Frame) : Instr :=
  if d.kind = 0 then decodeSf v d
  else if d.kind = 1 then decodeFf v d
  else if d.kind = 2 then .cf (loNibble d.d0) d.from1
  else if d.kind = 3 then decodeFc d
  else if d.kind.toNat ≤ 7 then .pci4To7Invalid d.kind
  else .pci8ToFInvalid d.kind

/-- Why bytes are not a frame. -/
inductive DecodeError where
  /-- The port carries exactly eight data bytes (R60, D30). -/
  | notEightBytes
deriving DecidableEq, Repr

/-- Decoding of any bytes: eight of them are a frame and have a row, anything else is rejected by name. -/
def decodeBytes (v : View) (bytes : List Byte) : Except DecodeError Instr :=
  match bytes with
  | [b0, b1, b2, b3, b4, b5, b6, b7] => .ok (decode v ⟨b0, b1, b2, b3, b4, b5, b6, b7⟩)
  | _ => .error .notEightBytes

/-- The views in which a row is the answer of `decode`: the obd rows hide the frame rows they sit on. -/
def Instr.visibleIn (v : View) : Instr → Bool
  | .sf p =>
    match v with
    | .frame => true
    | .request => false
    | .response => decide (responseRow p = .sf p)
  | .ff total p => !(v == .response && total == 20 && p.p0 == 0x49 && p.p1 == 0x02 && p.p2 == 0x01)
  | .obdReqRpm _ | .obdReqSpeed _ | .obdReqVin _ | .obdReqOther _ _ _ | .obdReqShort _ => v == .request
  | .obdRspRpm _ | .obdRspSpeed _ | .obdRspVinFf _ _ _ => v == .response
  | .sfLen0Invalid | .sfLen8To15Invalid _ | .ffShortInvalid _ | .cf _ _ | .fcCts _ _ | .fcWait _ _ | .fcOvf _ _
  | .fcRsv3Invalid | .fcRsv4To7Invalid _ | .fcRsv8To15Invalid _ | .pci4To7Invalid _ | .pci8ToFInvalid _ => true

/-- What `Decode` of R75 answers for the frames of a row. -/
def Instr.typed : Instr → TypedFrame
  | .sf p => .sf p
  | .ff total p => .ff total p
  | .cf seq p => .cf seq p
  | .fcCts bs stmin => .fc .cts bs stmin
  | .fcWait bs stmin => .fc .wait bs stmin
  | .fcOvf bs stmin => .fc .ovf bs stmin
  | .obdReqRpm extra => .sf (0x01 :: 0x0C :: extra)
  | .obdReqSpeed extra => .sf (0x01 :: 0x0D :: extra)
  | .obdReqVin extra => .sf (0x09 :: 0x02 :: extra)
  | .obdReqOther service pid extra => .sf (service :: pid :: extra)
  | .obdReqShort p0 => .sf [p0]
  | .obdRspRpm rpm => .sf [0x41, 0x0C, highByte rpm, lowByte rpm]
  | .obdRspSpeed speed => .sf [0x41, 0x0D, speed]
  | .obdRspVinFf v0 v1 v2 => .ff 20 ⟨0x49, 0x02, 0x01, v0, v1, v2⟩
  | .sfLen0Invalid | .sfLen8To15Invalid _ | .ffShortInvalid _ | .fcRsv3Invalid | .fcRsv4To7Invalid _
  | .fcRsv8To15Invalid _ | .pci4To7Invalid _ | .pci8ToFInvalid _ => .invalid

/-! ## The encoders of R81 to R84 -/

/-- What an encoder answers: a frame, the error of R81 and R82, or nothing because the call is outside its contract (D37). -/
inductive Encoded where
  | frame (d : Frame)
  | malformedPci
  | outsideContract
deriving DecidableEq, Repr

/-- `[pci] ++ p ++ FILL×(7 - n)` for a payload of at most seven bytes. -/
def padded (fill pci : Byte) (p : List Byte) : Frame where
  d0 := pci
  d1 := p.getD 0 fill
  d2 := p.getD 1 fill
  d3 := p.getD 2 fill
  d4 := p.getD 3 fill
  d5 := p.getD 4 fill
  d6 := p.getD 5 fill
  d7 := p.getD 6 fill

/-- `[0x10 | total[11:8], total[7:0]] ++ p[0..6]` (R82). -/
def ffFrame (total : Len) (p : Bytes6) : Frame where
  d0 := joinNibbles 0x1 (total.extractLsb' 8 4)
  d1 := total.extractLsb' 0 8
  d2 := p.p0
  d3 := p.p1
  d4 := p.p2
  d5 := p.p3
  d6 := p.p4
  d7 := p.p5

/-- `EncodeSF` (R81). -/
def encodeSF (fill : Byte) (p : List Byte) : Encoded :=
  if p.length = 0 ∨ 7 < p.length then .malformedPci
  else .frame (padded fill (joinNibbles 0x0 (BitVec.ofNat 4 p.length)) p)

/-- `EncodeFF` (R82); its operand is six bytes, and a list of another length is outside the contract. -/
def encodeFF (total : Len) (p : List Byte) : Encoded :=
  if total.toNat ≤ 7 then .malformedPci
  else match p with
    | [p0, p1, p2, p3, p4, p5] => .frame (ffFrame total ⟨p0, p1, p2, p3, p4, p5⟩)
    | _ => .outsideContract

/-- `EncodeCF` (R83); a model refuses n = 0 and n > 7 (D37). -/
def encodeCF (fill : Byte) (seq : Nibble) (p : List Byte) : Encoded :=
  if p.length = 0 ∨ 7 < p.length then .outsideContract
  else .frame (padded fill (joinNibbles 0x2 seq) p)

/-- The low nibble of an FC's first byte (R65). -/
def FlowStatus.code : FlowStatus → Nibble
  | .cts => 0
  | .wait => 1
  | .ovf => 2

/-- `EncodeFC` (R84). -/
def encodeFC (fill : Byte) (fs : FlowStatus) (bs stmin : Byte) : Frame :=
  padded fill (joinNibbles 0x3 fs.code) [bs, stmin]

/-! ## The encoder of instructions -/

/-- The frame of a well-formed instruction, its bytes without a field set to `fill` (R62 to R65, R71, R72, and the match columns
of spec/opcode_table.json for the illegal rows, whose other PCI bits are 0). -/
def encode (fill : Byte) : Instr → Frame
  | .sfLen0Invalid => padded fill (joinNibbles 0x0 0x0) []
  | .sfLen8To15Invalid len => padded fill (joinNibbles 0x0 len) []
  | .sf p => padded fill (joinNibbles 0x0 (BitVec.ofNat 4 p.length)) p
  | .ffShortInvalid total => padded fill (joinNibbles 0x1 (total.extractLsb' 8 4)) [total.extractLsb' 0 8]
  | .ff total p => ffFrame total p
  | .cf seq p => padded fill (joinNibbles 0x2 seq) p.toList
  | .fcCts bs stmin => encodeFC fill .cts bs stmin
  | .fcWait bs stmin => encodeFC fill .wait bs stmin
  | .fcOvf bs stmin => encodeFC fill .ovf bs stmin
  | .fcRsv3Invalid => padded fill (joinNibbles 0x3 0x3) []
  | .fcRsv4To7Invalid fs => padded fill (joinNibbles 0x3 fs) []
  | .fcRsv8To15Invalid fs => padded fill (joinNibbles 0x3 fs) []
  | .pci4To7Invalid hn => padded fill (joinNibbles hn 0x0) []
  | .pci8ToFInvalid hn => padded fill (joinNibbles hn 0x0) []
  | .obdReqRpm extra => padded fill (joinNibbles 0x0 (BitVec.ofNat 4 (extra.length + 2))) (0x01 :: 0x0C :: extra)
  | .obdReqSpeed extra => padded fill (joinNibbles 0x0 (BitVec.ofNat 4 (extra.length + 2))) (0x01 :: 0x0D :: extra)
  | .obdReqVin extra => padded fill (joinNibbles 0x0 (BitVec.ofNat 4 (extra.length + 2))) (0x09 :: 0x02 :: extra)
  | .obdReqOther service pid extra =>
    padded fill (joinNibbles 0x0 (BitVec.ofNat 4 (extra.length + 2))) (service :: pid :: extra)
  | .obdReqShort p0 => padded fill (joinNibbles 0x0 0x1) [p0]
  | .obdRspRpm rpm => padded fill (joinNibbles 0x0 0x4) [0x41, 0x0C, highByte rpm, lowByte rpm]
  | .obdRspSpeed speed => padded fill (joinNibbles 0x0 0x3) [0x41, 0x0D, speed]
  | .obdRspVinFf v0 v1 v2 => ffFrame 20 ⟨0x49, 0x02, 0x01, v0, v1, v2⟩

/-- How many leading bytes of a frame the codec reads (R61, R69): all eight of an FF or a CF, the PCI and the payload of an SF, the
PCI of an FC, and no more than the PCI bits that make a frame illegal. -/
def fieldBytes (d : Frame) : Nat :=
  match typedFrame d with
  | .sf p => 1 + p.length
  | .ff _ _ => 8
  | .cf _ _ => 8
  | .fc _ _ _ => 3
  | .invalid => if d.kind = 1 then 2 else 1

/-! ## The opcode table -/

/-- A row's mnemonic in spec/opcode_table.json. -/
def Instr.mnemonic : Instr → String
  | .sfLen0Invalid => "SF_LEN0_INVALID"
  | .sfLen8To15Invalid _ => "SF_LEN8_15_INVALID"
  | .sf _ => "SF"
  | .ffShortInvalid _ => "FF_SHORT_INVALID"
  | .ff _ _ => "FF"
  | .cf _ _ => "CF"
  | .fcCts _ _ => "FC_CTS"
  | .fcWait _ _ => "FC_WAIT"
  | .fcOvf _ _ => "FC_OVF"
  | .fcRsv3Invalid => "FC_RSV_3_INVALID"
  | .fcRsv4To7Invalid _ => "FC_RSV_4_7_INVALID"
  | .fcRsv8To15Invalid _ => "FC_RSV_8_15_INVALID"
  | .pci4To7Invalid _ => "PCI_4_7_INVALID"
  | .pci8ToFInvalid _ => "PCI_8_F_INVALID"
  | .obdReqRpm _ => "OBD_REQ_RPM"
  | .obdReqSpeed _ => "OBD_REQ_SPEED"
  | .obdReqVin _ => "OBD_REQ_VIN"
  | .obdReqOther _ _ _ => "OBD_REQ_OTHER"
  | .obdReqShort _ => "OBD_REQ_SHORT"
  | .obdRspRpm _ => "OBD_RSP_RPM"
  | .obdRspSpeed _ => "OBD_RSP_SPEED"
  | .obdRspVinFf _ _ _ => "OBD_RSP_VIN_FF"

/-- A row of spec/opcode_table.json: a frame word W matches it when `W & mask = pattern` (R74). -/
structure TableRow where
  mnemonic : String
  pattern  : FrameWord
  mask     : FrameWord
deriving DecidableEq, Repr

def TableRow.matchesWord (r : TableRow) (w : FrameWord) : Bool := (w &&& r.mask) == r.pattern

/-- The rows of layer `frame`, in file order: the first that matches classifies the frame (R74). -/
def frameRows : List TableRow :=
  [⟨"SF_LEN0_INVALID",     0x0000000000000000, 0xFF00000000000000⟩,
   ⟨"SF_LEN8_15_INVALID",  0x0800000000000000, 0xF800000000000000⟩,
   ⟨"SF",                  0x0000000000000000, 0xF000000000000000⟩,
   ⟨"FF_SHORT_INVALID",    0x1000000000000000, 0xFFF8000000000000⟩,
   ⟨"FF",                  0x1000000000000000, 0xF000000000000000⟩,
   ⟨"CF",                  0x2000000000000000, 0xF000000000000000⟩,
   ⟨"FC_CTS",              0x3000000000000000, 0xFF00000000000000⟩,
   ⟨"FC_WAIT",             0x3100000000000000, 0xFF00000000000000⟩,
   ⟨"FC_OVF",              0x3200000000000000, 0xFF00000000000000⟩,
   ⟨"FC_RSV_3_INVALID",    0x3300000000000000, 0xFF00000000000000⟩,
   ⟨"FC_RSV_4_7_INVALID",  0x3400000000000000, 0xFC00000000000000⟩,
   ⟨"FC_RSV_8_15_INVALID", 0x3800000000000000, 0xF800000000000000⟩,
   ⟨"PCI_4_7_INVALID",     0x4000000000000000, 0xC000000000000000⟩,
   ⟨"PCI_8_F_INVALID",     0x8000000000000000, 0x8000000000000000⟩]

/-- The request rows of layer `obd`, for a frame whose frame row is SF. Row OBD_REQ_SHORT stands before OBD_REQ_OTHER here,
because that row's constraint (length 2..7) is not in its mask. -/
def requestRows : List TableRow :=
  [⟨"OBD_REQ_SHORT", 0x0100000000000000, 0xFF00000000000000⟩,
   ⟨"OBD_REQ_RPM",   0x00010C0000000000, 0xF0FFFF0000000000⟩,
   ⟨"OBD_REQ_SPEED", 0x00010D0000000000, 0xF0FFFF0000000000⟩,
   ⟨"OBD_REQ_VIN",   0x0009020000000000, 0xF0FFFF0000000000⟩,
   ⟨"OBD_REQ_OTHER", 0x0000000000000000, 0xF000000000000000⟩]

/-- The response rows of layer `obd`. -/
def responseRows : List TableRow :=
  [⟨"OBD_RSP_RPM",    0x04410C0000000000, 0xFFFFFF0000000000⟩,
   ⟨"OBD_RSP_SPEED",  0x03410D0000000000, 0xFFFFFF0000000000⟩,
   ⟨"OBD_RSP_VIN_FF", 0x1014490201000000, 0xFFFFFFFFFF000000⟩]

/-- The mnemonic the table's match and mask columns give a frame word in a view, as R74 says to read them. -/
def tableMnemonic (v : View) (w : FrameWord) : Option String :=
  let frameRow := (frameRows.find? (·.matchesWord w)).map (·.mnemonic)
  match v with
  | .frame => frameRow
  | .request =>
    if frameRow = some "SF" then (requestRows.find? (·.matchesWord w)).map (·.mnemonic) else frameRow
  | .response =>
    match responseRows.find? (·.matchesWord w) with
    | some r => some r.mnemonic
    | none => frameRow

/-! ## Table words -/

/-- The frame of an instruction whose bits are `w`, numbered as the table numbers them: one 64-bit word, `d[0]` in bits 63:56. -/
def tableFrame (nbits w : Nat) : Frame := Frame.ofWord (BitVec.ofNat 64 (w % 2 ^ nbits))

/-- The view in which a table word is read, for a reader that knows no receiver: a Single or First Frame whose first payload byte
has bit 6 set carries a positive response (R108: the request service OR-ed with 0x40), anything else is read as a request. -/
def tableView (d : Frame) : View :=
  if (d.kind = 0 ∧ d.d1.getLsbD 6) ∨ (d.kind = 1 ∧ d.d2.getLsbD 6) then .response else .request

/-- The instruction the decoder reads from a table word. -/
def decodeTableWord (nbits w : Nat) : Option Instr :=
  some (decode (tableView (tableFrame nbits w)) (tableFrame nbits w))

end Sys2Proof
end

