-- ==== Sys2Proof/Machine/State.lean ====
section
/-! DEFINITION. The state of one ISOTP-CORE instance (10_state.md), the agents around it that one instance meets (R36), and the
state after reset (R40, R138, R139). -/

namespace Sys2Proof.Machine

/-! ## Enumerated registers -/

/-- `CTRL`, the control point (R17). The values 11..15 are never written, so they are no constructors. -/
inductive Ctrl where
  | idleCmd
  | txReq
  | rxWait
  | txFc
  | listen
  | txSf
  | txFf
  | awaitFc
  | sleep
  | txCf
  | halt
deriving DecidableEq, Repr

/-- The encoding of CTRL (R17, D2). -/
def Ctrl.code : Ctrl → BitVec 4
  | .idleCmd => 0
  | .txReq => 1
  | .rxWait => 2
  | .txFc => 3
  | .listen => 4
  | .txSf => 5
  | .txFf => 6
  | .awaitFc => 7
  | .sleep => 8
  | .txCf => 9
  | .halt => 10

/-- `STATE`, the session state (R19). -/
inductive SessionState where
  | idle
  | awaitFlow
  | sendCons
  | awaitCons
deriving DecidableEq, Repr

/-- The encoding of STATE (R19, D3). -/
def SessionState.code : SessionState → BitVec 2
  | .idle => 0
  | .awaitFlow => 1
  | .sendCons => 2
  | .awaitCons => 3

/-- `DIR` (R20): 0 sending, 1 receiving. -/
inductive Direction where
  | sending
  | receiving
deriving DecidableEq, Repr

/-- The encoding of DIR (R20). -/
def Direction.code : Direction → BitVec 1
  | .sending => 0
  | .receiving => 1

/-- `STATUS` (R29). -/
inductive Status where
  /-- No transaction since reset. -/
  | none
  /-- A transaction is running. -/
  | busy
  | done
  | failed
deriving DecidableEq, Repr

/-- The encoding of STATUS (R29, D4). -/
def Status.code : Status → BitVec 2
  | .none => 0
  | .busy => 1
  | .done => 2
  | .failed => 3

/-- The error kinds of R121. -/
inductive ErrorKind where
  | malformedPci
  | seqMismatch
  | unexpectedFrame
  | bufferTooSmall
  | overflow
  | timeout
  | linkError
  | unsupportedObd
deriving DecidableEq, Repr

/-- The FAIL_CODE value of an error kind (R29, R121, D4). -/
def ErrorKind.code : ErrorKind → BitVec 4
  | .malformedPci => 1
  | .seqMismatch => 2
  | .unexpectedFrame => 3
  | .bufferTooSmall => 4
  | .overflow => 5
  | .timeout => 6
  | .linkError => 7
  | .unsupportedObd => 8

/-- `TXF`, the frame of the outstanding transmit handshake (R30). -/
structure TxFrame where
  id : CanId
  d  : Frame
deriving DecidableEq, Repr

/-- Which of the registers R40 marks *unwritten* have been written since reset. A register holds a value all the same (log entry
2): the mark is R40's "holds no value", and no rule reads it. -/
structure Written where
  dir       : Bool
  total     : Bool
  cursor    : Bool
  seq       : Bool
  credit    : Bool
  creditInf : Bool
  bs        : Bool
  stmin     : Bool
  cap       : Bool
  resultLen : Bool
  service   : Bool
  pid       : Bool
  txf       : Bool
deriving DecidableEq, Repr

/-- No register written: the marks after reset (R40). -/
def Written.nothing : Written :=
  ⟨false, false, false, false, false, false, false, false, false, false, false, false, false⟩

/-! ## Ports (10_state.md section 3) -/

/-- How a transaction ends for the host (R34). -/
inductive Completion where
  | ok (len : Len)
  | err (kind : ErrorKind)
deriving DecidableEq, Repr

/-- What the block emits (R14). -/
inductive Output where
  /-- `emit Tx(id, d)`. -/
  | tx (id : CanId) (d : Frame)
  /-- `emit RxReq`. -/
  | rxReq
  /-- `emit Sleep(us)`. -/
  | sleep (us : Nat)
  /-- `emit Complete(result)`. -/
  | complete (result : Completion)
  /-- `emit Log(kind)`. -/
  | log (kind : ErrorKind)
deriving DecidableEq, Repr

/-- `Cmd REQUEST(service, pid, cap)`, as the host holds it until the block accepts it (R34, R114). -/
structure Request where
  service : Byte
  pid     : Byte
  cap     : Nat
deriving DecidableEq, Repr

/-- What the link answers to an `RxReq` (R31, R125). -/
inductive LinkEvent where
  /-- `Rx(id, d)`: the next received frame. -/
  | frame (id : CanId) (d : Frame)
  /-- `RxErr`. -/
  | err
  /-- `Timeout`, in place of the link's answer. -/
  | timeout
deriving DecidableEq, Repr

/-- An answer to an `RxReq`, delivered `delay` microseconds after it. -/
structure LinkAnswer where
  delay : Nat
  event : LinkEvent
deriving DecidableEq, Repr

/-- An answer to a `Tx`, delivered `delay` microseconds after it: `TxOk` or `TxErr` (R31). -/
structure TxAnswer where
  delay : Nat
  ok    : Bool
deriving DecidableEq, Repr

/-- Who moves next (R36, R138). -/
inductive Turn where
  /-- The block takes its step. -/
  | block
  /-- The data-source agent writes RPM and SPEED (R32). -/
  | dataWrite (rpm : BitVec 16) (speed : Byte)
  /-- The platform restarts the image; `linkOk` is the boot input of R139. -/
  | reset (linkOk : Bool)
deriving DecidableEq, Repr

/-! ## The state -/

/-- Everything the spec gives the machine. The fields down to `pbuf` are the block's own; the rest are the agents of R36 as one
instance meets them, each an external agent's choices as plain data (log entry 4). -/
structure State where
  /-- The parameters of R8; no step changes them (log entry 1). -/
  cfg       : Config
  /-- `CTRL` (R17). -/
  ctrl      : Ctrl
  /-- `STATE` (R19). -/
  sess      : SessionState
  /-- `DIR` (R20). -/
  dir       : Direction
  /-- `TOTAL` (R21). -/
  total     : Len
  /-- `CURSOR` (R21). -/
  cursor    : Len
  /-- `SEQ` (R22). -/
  seq       : Nibble
  /-- `CREDIT` (R23). -/
  credit    : Byte
  /-- `CREDIT_INF` (R23). -/
  creditInf : Bool
  /-- `BS` (R24). -/
  bs        : Byte
  /-- `STMIN` (R25). -/
  stmin     : Byte
  /-- `CAP` (R26). -/
  cap       : Len
  /-- `RESULT_LEN` (R27). -/
  resultLen : Len
  /-- `SERVICE` (R28). -/
  service   : Byte
  /-- `PID` (R28). -/
  pid       : Byte
  /-- `STATUS` (R29). -/
  status    : Status
  /-- `FAIL_CODE` (R29): 0 none, 1..8 the code of an error kind. -/
  failCode  : BitVec 4
  /-- `TXF` (R30). -/
  txf       : TxFrame
  /-- R40's *unwritten* marks. -/
  written   : Written
  /-- `PBUF` (R41): the bytes written since reset, by offset. -/
  pbuf      : List Host.Cell
  /-- `RPM` of the DATA port (R32). -/
  rpm       : BitVec 16
  /-- `SPEED` of the DATA port (R32). -/
  speed     : Byte
  /-- The commands the host holds, oldest first (R34). -/
  host      : List Request
  /-- The answers the link gives to successive `RxReq`s: the frames that wait in it, in arrival order (R31, R54, D41). -/
  link      : List LinkAnswer
  /-- The answers the link gives to successive `Tx`s (R31). -/
  txAnswers : List TxAnswer
  /-- How long the timer takes over successive `Sleep`s, in microseconds (R33). -/
  timer     : List Nat
  /-- The turns to come; when none is listed it is the block's. -/
  agenda    : List Turn
  /-- The environment's time in microseconds: the block has no clock (R7). -/
  now       : Nat
  /-- When the last `RxReq` was emitted by a rule other than R113 (R125). -/
  rxReqAt   : Nat
  /-- The earliest time at which the outstanding `Sleep` may be answered (R33). -/
  sleepDue  : Nat
  /-- What the block has emitted, oldest first (R14). -/
  out       : List Output
deriving DecidableEq, Repr

/-! ## How a step can stop -/

/-- The faults. No run from reset reaches one (R40, R37: "A reachable state that breaks one is a spec error, not a chip
behaviour"), and 93_implementation_defined.md section B gives such cases the treatment `fault`. All are safe: the machine stops
where the spec gives no behaviour. -/
inductive Fault where
  /-- Raised by the sender's reads of PBUF (R87, R96) at an offset nothing has written since reset (R40). Safe. -/
  | unwrittenByte
  /-- Raised by an access to PBUF at an offset of 4095 or more, which does not exist (R41, R43). Safe. -/
  | offsetOutOfRange
  /-- Raised where R96, R97 and R102 subtract and CURSOR exceeds TOTAL (R12, R37 item 1). Safe. -/
  | cursorBeyondTotal
  /-- Raised where R97 and R102 take one from a CREDIT of 0 with CREDIT_INF = 0 (R12, R37 item 4). Safe. -/
  | creditUnderflow
  /-- Raised by R102's capacity guard, which cannot fire on a run from reset: 93_implementation_defined.md item 21 asks for a fault
  if it is ever reached (R37 item 1, D11). Safe. -/
  | capacityGuard
  /-- Raised at RX_WAIT when STATE is neither Idle nor AwaitCons (R37 item 5; R116 has no row for it). Safe. -/
  | stateDisagrees
deriving DecidableEq, Repr

/-- The refusals. -/
inductive Refusal where
  /-- Raised by no arm of this model: an instruction without a meaning, by its mnemonic. Safe. -/
  | notModelled (mnemonic : String)
  /-- Raised by every meaning where no `RxReq` is outstanding: an event not listed for the current CTRL is never delivered (R17;
  93_implementation_defined.md item 22, treatment `refuse`). `step` never calls a meaning there. Safe. -/
  | noReceiveOutstanding
  /-- Raised by the delivery of a `Timeout` that R125 does not allow: no HAS_TIMEOUT, at LISTEN, or too early. Safe. -/
  | timeoutNotAllowed
  /-- Raised by the delivery of a `SleepDone` sooner than the delay asked for (R33). Safe. -/
  | sleepTooShort
  /-- Raised by the sender when it calls an encoder outside its contract (R83, D37; item 20, treatment `refuse`). Safe. -/
  | encoderContract
deriving DecidableEq, Repr

/-! ## Reset -/

/-- R138 and R139: every register at its value of R40, `link_ok` the boot input. The registers R40 marks *unwritten* hold 0 and
carry no written mark (log entry 2). The parameters, the DATA port, the link, the host and the environment's time are no
registers of the block and stay. -/
def State.bootFrom (s : State) (linkOk : Bool) : State :=
  let cleared : State :=
    { s with
      ctrl := .halt, sess := .idle, dir := .sending, total := 0, cursor := 0, seq := 0, credit := 0, creditInf := false,
      bs := 0, stmin := 0, cap := 0, resultLen := 0, service := 0, pid := 0, status := .none, failCode := 0,
      txf := ⟨0, ⟨0, 0, 0, 0, 0, 0, 0, 0⟩⟩, written := Written.nothing, pbuf := [] }
  match linkOk, s.cfg.role with
  | false, _ => cleared
  | true, .tester => { cleared with ctrl := .idleCmd }
  | true, .simulator => { cleared with ctrl := .listen, rxReqAt := s.now, out := s.out ++ [.rxReq] }

/-- An instance with the given parameters before its image starts: silent agents, time 0. -/
def State.blank (cfg : Config) : State where
  cfg := cfg
  ctrl := .halt
  sess := .idle
  dir := .sending
  total := 0
  cursor := 0
  seq := 0
  credit := 0
  creditInf := false
  bs := 0
  stmin := 0
  cap := 0
  resultLen := 0
  service := 0
  pid := 0
  status := .none
  failCode := 0
  txf := ⟨0, ⟨0, 0, 0, 0, 0, 0, 0, 0⟩⟩
  written := Written.nothing
  pbuf := []
  rpm := 0
  speed := 0
  host := []
  link := []
  txAnswers := []
  timer := []
  agenda := []
  now := 0
  rxReqAt := 0
  sleepDue := 0
  out := []

/-- An instance right after reset, for any parameters and any boot input. -/
def State.resetFor (cfg : Config) (linkOk : Bool) : State := (State.blank cfg).bootFrom linkOk

/-- The machine right after reset: a simulator with the defaults of R8 whose driver was installed (log entry 3: R8 gives ROLE no
default). `State.resetFor` gives every other instance. -/
def State.reset : State := State.resetFor Config.simulator true

end Sys2Proof.Machine
end

