-- ==== Sys2Proof/Machine/Ops.lean ====
section
/-! DEFINITION. The shared operations: PBUF (20_memory.md), the emissions of R14, the end of a session by a failure (R122, the
block's only "exception") or by success (R123), the drop of a request (R119), and what the host may read (R132). -/

namespace Sys2Proof.Machine

/-- The three outcomes of a step. -/
abbrev Result := Host.Outcome State Fault Refusal

/-! ## PBUF -/

/-- The canonical form of PBUF: offsets strictly rising, each below `bufCap`. An unlisted offset holds no value (R40), so no cell
is redundant. -/
def memWf : List Host.Cell → Bool
  | [] => true
  | [c] => decide (c.1 < bufCap)
  | c :: c' :: cs => decide (c.1 < c'.1) && memWf (c' :: cs)

/-- The byte at an offset, if one has been written since reset. -/
def memRead : List Host.Cell → Nat → Option Byte
  | [], _ => none
  | c :: cs, a => if c.1 = a then some c.2 else memRead cs a

/-- Writes one byte, keeping the canonical form. -/
def memWrite : List Host.Cell → Nat → Byte → List Host.Cell
  | [], a, b => [(a, b)]
  | c :: cs, a, b =>
    if a < c.1 then (a, b) :: c :: cs
    else if a = c.1 then (a, b) :: cs
    else c :: memWrite cs a b

/-- `bytes[i]` to offset `a+i`, a sequence of byte writes (R43, R47). -/
def memWriteList (m : List Host.Cell) (a : Nat) : List Byte → List Host.Cell
  | [] => m
  | b :: bs => memWriteList (memWrite m a b) (a + 1) bs

/-- The `n` bytes from offset `a`, if all of them have been written (R44). -/
def memReadList (m : List Host.Cell) (a : Nat) : Nat → Option (List Byte)
  | 0 => some []
  | n + 1 =>
    match memRead m a, memReadList m (a + 1) n with
    | some b, some bs => some (b :: bs)
    | _, _ => none

/-- PBUF after `MemWrite(PBUF, a, n, bytes)`. -/
def State.writePbuf (a : Nat) (bytes : List Byte) (s : State) : State :=
  { s with pbuf := memWriteList s.pbuf a bytes }

/-- `MemWrite(PBUF, a, n, bytes)` (R43), then the rest of the rule. -/
def State.store (s : State) (a : Nat) (bytes : List Byte) (k : State → Result) : Result :=
  if a + bytes.length ≤ bufCap then k (s.writePbuf a bytes) else .fault .offsetOutOfRange

/-- `MemRead(PBUF, a, n)` (R44), then the rest of the rule. -/
def State.load (s : State) (a n : Nat) (k : List Byte → Result) : Result :=
  if a + n ≤ bufCap then
    match memReadList s.pbuf a n with
    | some bytes => k bytes
    | none => .fault .unwrittenByte
  else .fault .offsetOutOfRange

/-! ## Emissions (R14) -/

/-- `emit RxReq` by a rule other than R113: the wait that R125 measures starts. -/
def emitRxReq (s : State) : State := { s with rxReqAt := s.now, out := s.out ++ [.rxReq] }

/-- `TXF <- (TX_ID, d); emit Tx(TXF); CTRL <- at` (R30). -/
def emitTx (at' : Ctrl) (d : Frame) (s : State) : State :=
  { s with
    ctrl := at', txf := ⟨s.cfg.txId, d⟩, written := { s.written with txf := true },
    out := s.out ++ [.tx s.cfg.txId d] }

/-- `emit Sleep(us); CTRL <- SLEEP` (R33, R95). -/
def emitSleep (us : Nat) (s : State) : State :=
  { s with ctrl := .sleep, sleepDue := s.now + us, out := s.out ++ [.sleep us] }

/-- `STATE <- st; CTRL <- at; emit RxReq` (R89, R95, R104, R115). -/
def awaitRx (at' : Ctrl) (st : SessionState) (s : State) : State := emitRxReq { s with sess := st, ctrl := at' }

/-! ## The end of a session -/

/-- `raise Fail(kind)` (R122): the one way the block takes an error. -/
def raiseFail (kind : ErrorKind) (s : State) : State :=
  match s.cfg.role with
  | .tester =>
    { s with
      status := .failed, failCode := kind.code, sess := .idle, ctrl := .idleCmd,
      out := s.out ++ [.log kind, .complete (.err kind)] }
  | .simulator =>
    { s with
      status := .failed, failCode := kind.code, sess := .idle, ctrl := .listen, rxReqAt := s.now,
      out := s.out ++ [.log kind, .rxReq] }

/-- `raise Done` (R123). There is no return from a failure: a failed transaction does not resume (R129). -/
def raiseDone (s : State) : State :=
  match s.cfg.role with
  | .tester =>
    { s with
      status := .done, sess := .idle, ctrl := .idleCmd, resultLen := s.total,
      written := { s.written with resultLen := true }, out := s.out ++ [.complete (.ok s.total)] }
  | .simulator =>
    { s with status := .done, sess := .idle, ctrl := .listen, rxReqAt := s.now, out := s.out ++ [.rxReq] }

/-- `Drop(kind)` at LISTEN (R119), and the same for a link error there (R120): no session exists, CTRL and STATE stay. -/
def drop (kind : ErrorKind) (s : State) : State :=
  { s with status := .failed, failCode := kind.code, rxReqAt := s.now, out := s.out ++ [.log kind, .rxReq] }

/-- `raise Fail(kind)` as the end of a step. -/
def fail (kind : ErrorKind) (s : State) : Result := .next (raiseFail kind s)

/-! ## Where a received frame arrives (R116) -/

/-- The view of the receiver at a control point with an outstanding `RxReq` (R17, R113); none elsewhere. -/
def Ctrl.view : Ctrl → Option View
  | .listen => some .request
  | .rxWait => some .response
  | .awaitFc => some .frame
  | .idleCmd | .txReq | .txFc | .txSf | .txFf | .sleep | .txCf | .halt => none

/-- The rule for a frame, by the control point that receives it. Elsewhere no frame is ever delivered (R17). -/
def onReceive (listen rxWait awaitFc : State → Result) (s : State) : Result :=
  match s.ctrl with
  | .listen => listen s
  | .rxWait => rxWait s
  | .awaitFc => awaitFc s
  | .idleCmd | .txReq | .txFc | .txSf | .txFf | .sleep | .txCf | .halt => .refused .noReceiveOutstanding

/-- The rule for a legal frame at RX_WAIT, by STATE (the table of R116). -/
def onState (idle awaitCons : State → Result) (s : State) : Result :=
  match s.sess with
  | .idle => idle s
  | .awaitCons => awaitCons s
  | .awaitFlow | .sendCons => .fault .stateDisagrees

/-! ## What the host may see (R45, R132) -/

/-- PBUF is the host's outside a transaction: after the block's `Complete`, until the next accepted REQUEST (R45). DESIGN CHOICE
(log entry 23, safe): a reset that abandons a transaction emits no `Complete` (R138), and R45 and R142 do not say who owns PBUF then;
it is the host's again, at IDLE_CMD and at HALT. -/
def State.hostOwnsPbuf (s : State) : Bool := decide (s.cfg.role = .tester ∧ (s.ctrl = .idleCmd ∨ s.ctrl = .halt))

/-- The payload the host reads after `Complete(Ok(len))`: PBUF[0..RESULT_LEN]. Without a completed transaction there is none. -/
def State.hostPayload (s : State) : Option (List Byte) :=
  if s.hostOwnsPbuf = true ∧ s.status = .done then memReadList s.pbuf 0 s.resultLen.toNat else none

end Sys2Proof.Machine
end

