-- ==== Sys2Proof/Machine/Flags.lean ====
section
/-! DEFINITION. The block's one flag, CREDIT_INF, and the credit it qualifies (10_state.md R23, decision D7). -/

namespace Sys2Proof.Machine

/-- `CREDIT_INF <- (bs = 0)` (R90, R101): a block size of 0 is unlimited credit (R67). -/
def creditInfOf (bs : Byte) : Bool := bs == 0

/-- `CREDIT_INF = 0 and CREDIT = 0` (R95, R102). -/
def State.creditExhausted (s : State) : Bool := !s.creditInf && s.credit == 0

/-- `CREDIT <- v`. -/
def setCredit (v : Byte) (s : State) : State :=
  { s with credit := v, written := { s.written with credit := true } }

/-- `if CREDIT_INF = 0 then CREDIT <- CREDIT - 1` (R97, R102), then the rest of the rule. -/
def State.spendCredit (s : State) (k : State → Result) : Result :=
  if s.creditInf then k s
  else if s.credit = 0 then .fault .creditUnderflow
  else k (setCredit (s.credit - 1) s)

end Sys2Proof.Machine
end

