-- ==== Sys2Proof/Machine/Operands.lean ====
section
/-! DEFINITION. The operands the session rules compute: the STmin delay (R85), the size of the next consecutive chunk (R96, R97,
R102), the DATA-port snapshot (R51) and the dispatcher's responses (R107 to R112). -/

namespace Sys2Proof.Machine

/-- `StminToUs(v)`, in microseconds (R66, R85). -/
def stminToUs (v : Byte) : Nat :=
  if v.toNat ≤ 0x7F then v.toNat * 1000
  else if 0xF1 ≤ v.toNat ∧ v.toNat ≤ 0xF9 then (v.toNat - 0xF0) * 100
  else 127000

/-- `n <- min(7, TOTAL - CURSOR)` (R96, R97, R102), then the rest of the rule. -/
def State.withChunk (s : State) (k : Nat → Result) : Result :=
  if s.cursor.toNat ≤ s.total.toNat then k (min 7 (s.total.toNat - s.cursor.toNat)) else .fault .cursorBeyondTotal

/-- `(SEQ + 1) mod 16` (R22). -/
def nextSeq (seq : Nibble) : Nibble := seq + 1

/-- `CURSOR + n`, a 12-bit register's new value. -/
def advance (cursor : Len) (n : Nat) : Len := cursor + BitVec.ofNat 12 n

/-- `CURSOR <- CURSOR + n; SEQ <- (SEQ + 1) mod 16` (R97, R102). -/
def advanceChunk (n : Nat) (s : State) : State :=
  { s with
    cursor := advance s.cursor n, seq := nextSeq s.seq,
    written := { s.written with cursor := true, seq := true } }

/-- `min(cap, 4095)` (R26, R114, D20). -/
def clampCap (cap : Nat) : Len := BitVec.ofNat 12 (min cap bufCap)

/-- One atomic read of both data-source values (R51). -/
structure DataSnapshot where
  rpm   : BitVec 16
  speed : Byte
deriving DecidableEq, Repr

/-- `DataSnapshot()` (R51, R107). -/
def State.snapshot (s : State) : DataSnapshot := ⟨s.rpm, s.speed⟩

/-- `[0x41, 0x0C, rpm[15:8], rpm[7:0]]` (R109). -/
def rpmResponse (snap : DataSnapshot) : List Byte := [0x41, 0x0C, highByte snap.rpm, lowByte snap.rpm]

/-- `[0x41, 0x0D, speed]` (R110). -/
def speedResponse (snap : DataSnapshot) : List Byte := [0x41, 0x0D, snap.speed]

/-- `[0x49, 0x02, 0x01] ++ VIN`, twenty bytes (R111, conflict C1). -/
def vinResponse (vin : Vector Byte 17) : List Byte := [0x49, 0x02, 0x01] ++ vin.toList

/-- `Dispatch(service, pid)` (R107); none is `Unsupported` (R112). -/
def dispatch (service pid : Byte) (snap : DataSnapshot) (vin : Vector Byte 17) : Option (List Byte) :=
  if service = 0x01 ∧ pid = 0x0C then some (rpmResponse snap)
  else if service = 0x01 ∧ pid = 0x0D then some (speedResponse snap)
  else if service = 0x09 ∧ pid = 0x02 then some (vinResponse vin)
  else none

end Sys2Proof.Machine
end

