-- ==== Sys2Proof/Machine/Receiver.lean ====
section
/-! DEFINITION. The receiver session state machine and reassembly buffer controller (42_session_receiver.md R99 to R105). -/

namespace Sys2Proof.Machine

/-- `TOTAL <- len; CURSOR <- len` (R100). -/
def receivedSf (len : Len) (s : State) : State :=
  { s with total := len, cursor := len, written := { s.written with total := true, cursor := true } }

/-- SF(len, p) at RX_WAIT with STATE = Idle (R100). -/
def receiveSf (p : List Byte) (s : State) : Result :=
  if s.cap.toNat < p.length then fail .bufferTooSmall s
  else
    s.store 0 p fun s =>
      .next (raiseDone (receivedSf (BitVec.ofNat 12 p.length) s))

/-- The register writes of R101: `TOTAL <- total; CURSOR <- 6; SEQ <- 1; BS <- RX_BS; STMIN <- RX_STMIN; CREDIT <- RX_BS;
CREDIT_INF <- (RX_BS = 0); STATE <- AwaitCons`. -/
def beginReceive (total : Len) (s : State) : State :=
  { s with
    total := total, cursor := 6, seq := 1, bs := s.cfg.rxBs, stmin := s.cfg.rxStmin, credit := s.cfg.rxBs,
    creditInf := creditInfOf s.cfg.rxBs, sess := .awaitCons,
    written :=
      { s.written with
        total := true, cursor := true, seq := true, bs := true, stmin := true, credit := true, creditInf := true } }

/-- FF(total, p) at RX_WAIT with STATE = Idle (R101). -/
def receiveFf (total : Len) (p : Bytes6) (s : State) : Result :=
  if s.cap.toNat < total.toNat then fail .bufferTooSmall s
  else
    s.store 0 p.toList fun s =>
      .next (emitTx .txFc (encodeFC s.cfg.fill .cts s.cfg.rxBs s.cfg.rxStmin) (beginReceive total s))

/-- `ReloadFC()` (R103). -/
def reloadFc (s : State) : State :=
  emitTx .txFc (encodeFC s.cfg.fill .cts s.bs s.stmin) (setCredit s.bs s)

/-- The end of R102, once the chunk is copied and the credit spent. -/
def afterChunk (s : State) : State :=
  if s.cursor = s.total then raiseDone s
  else if s.creditExhausted then reloadFc s
  else emitRxReq s

/-- CF(seq, p) at RX_WAIT with STATE = AwaitCons (R102). The capacity guard cannot fire on a run from reset, and a state that reaches
it is a spec error: it stops as 93_implementation_defined.md item 21 rules (log entry 14). -/
def receiveCf (seq : Nibble) (p : Bytes7) (s : State) : Result :=
  if seq = s.seq then
    s.withChunk fun n =>
      if s.cap.toNat < s.cursor.toNat + n then .fault .capacityGuard
      else
        s.store s.cursor.toNat (p.toList.take n) fun s =>
          (advanceChunk n s).spendCredit fun s => .next (afterChunk s)
  else fail .seqMismatch s

/-- `TxOk` at TX_FC (R104). -/
def txOkAtTxFc (s : State) : Result := .next (awaitRx .rxWait s.sess s)

/-- An SF, FF or CF at RX_WAIT, by STATE (R116): the other types than the expected ones fail (R105, D9). -/
def sfAtRxWait (p : List Byte) : State → Result := onState (receiveSf p) (fail .unexpectedFrame)

def ffAtRxWait (total : Len) (p : Bytes6) : State → Result := onState (receiveFf total p) (fail .unexpectedFrame)

def cfAtRxWait (seq : Nibble) (p : Bytes7) : State → Result := onState (fail .unexpectedFrame) (receiveCf seq p)

/-- An FC at RX_WAIT: unexpected in both states (R105). -/
def fcAtRxWait : State → Result := onState (fail .unexpectedFrame) (fail .unexpectedFrame)

end Sys2Proof.Machine
end

