-- ==== Sys2Proof/Machine/Sender.lean ====
section
/-! DEFINITION. The sender session state machine (41_session_sender.md R87 to R97). -/

namespace Sys2Proof.Machine

/-- Transmits an encoder's frame at the given control point; `MalformedPci` fails the session. -/
def transmit (at' : Ctrl) (e : Encoded) (s : State) : Result :=
  match e with
  | .frame d => .next (emitTx at' d s)
  | .malformedPci => fail .malformedPci s
  | .outsideContract => .refused .encoderContract

/-- The register writes at the head of `SEND(len)` (R87). -/
def beginSend (len : Len) (s : State) : State :=
  { s with
    dir := .sending, total := len, cursor := 0, sess := .idle, status := .busy,
    written := { s.written with dir := true, total := true, cursor := true } }

/-- `SEND(len)` (R87). -/
def send (len : Len) (s : State) : Result :=
  if len.toNat ≤ 7 then
    (beginSend len s).load 0 len.toNat fun p => transmit .txSf (encodeSF s.cfg.fill p) (beginSend len s)
  else
    (beginSend len s).load 0 6 fun p => transmit .txFf (encodeFF len p) (beginSend len s)

/-- `Continue()` (R95). -/
def continueSend (s : State) : State :=
  if s.cursor = s.total then raiseDone s
  else if s.creditExhausted then awaitRx .awaitFc .awaitFlow s
  else emitSleep (stminToUs s.stmin) s

/-- `CURSOR <- TOTAL` (R88). -/
def sentSf (s : State) : State := { s with cursor := s.total, written := { s.written with cursor := true } }

/-- `TxOk` at TX_SF (R88). -/
def txOkAtTxSf (s : State) : Result := .next (raiseDone (sentSf s))

/-- `CURSOR <- 6; SEQ <- 1` (R89). -/
def sentFf (s : State) : State :=
  { s with cursor := 6, seq := 1, written := { s.written with cursor := true, seq := true } }

/-- `TxOk` at TX_FF (R89). -/
def txOkAtTxFf (s : State) : Result :=
  .next (awaitRx .awaitFc .awaitFlow (sentFf s))

/-- `BS <- bs; STMIN <- stmin; CREDIT <- bs; CREDIT_INF <- (bs = 0); STATE <- SendCons` (R90). -/
def grantCredit (bs stmin : Byte) (s : State) : State :=
  { s with
    bs := bs, stmin := stmin, credit := bs, creditInf := creditInfOf bs, sess := .sendCons,
    written := { s.written with bs := true, stmin := true, credit := true, creditInf := true } }

/-- FC(CTS, bs, stmin) at AWAIT_FC (R90). -/
def clearToSend (bs stmin : Byte) (s : State) : Result :=
  .next (continueSend (grantCredit bs stmin s))

/-- FC(WAIT) at AWAIT_FC (R91): no register changes, there is no limit (D40). -/
def keepWaiting (s : State) : Result := .next (emitRxReq s)

/-- `SleepDone` at SLEEP (R96). -/
def sleepDoneAtSleep (s : State) : Result :=
  s.withChunk fun n =>
    s.load s.cursor.toNat n fun p => transmit .txCf (encodeCF s.cfg.fill s.seq p) s

/-- `TxOk` at TX_CF (R97). -/
def txOkAtTxCf (s : State) : Result :=
  s.withChunk fun n =>
    (advanceChunk n s).spendCredit fun s => .next (continueSend s)

end Sys2Proof.Machine
end

