-- ==== Sys2Proof/Machine/Drivers.lean ====
section
/-! DEFINITION. The role drivers (44_drivers.md R114 to R120). -/

namespace Sys2Proof.Machine

/-! ## Tester -/

/-- The register writes of R114. -/
def latchCommand (r : Request) (s : State) : State :=
  { s with
    service := r.service, pid := r.pid, cap := clampCap r.cap, dir := .receiving, sess := .idle, status := .busy,
    written := { s.written with service := true, pid := true, cap := true, dir := true } }

/-- `REQUEST(service, pid, cap)` at IDLE_CMD (R114). -/
def acceptCommand (r : Request) (s : State) : Result :=
  transmit .txReq (encodeSF s.cfg.fill [r.service, r.pid]) (latchCommand r s)

/-- `TxOk` at TX_REQ (R115). -/
def txOkAtTxReq (s : State) : Result := .next (awaitRx .rxWait s.sess s)

/-! ## Simulator -/

/-- `SERVICE <- d[1]; PID <- d[2]` (R118). -/
def latchRequest (service pid : Byte) (s : State) : State :=
  { s with service := service, pid := pid, written := { s.written with service := true, pid := true } }

/-- The end of R118 for a request SF of length 2 or more: SERVICE and PID are written, then the dispatcher answers (R107) and the
response is loaded and sent, or the request is dropped. -/
def serve (service pid : Byte) (s : State) : Result :=
  match dispatch service pid s.snapshot s.cfg.vin with
  | some r => (latchRequest service pid s).store 0 r fun s => send (BitVec.ofNat 12 r.length) s
  | none => .next (drop .unsupportedObd (latchRequest service pid s))

/-- `Drop(kind)` as the end of a step (R119). -/
def dropRequest (kind : ErrorKind) (s : State) : Result := .next (drop kind s)

/-- An SF at LISTEN (R118): only d[1] and d[2] are read, and a length below 2 is unsupported (D14). -/
def acceptRequest (p : List Byte) (s : State) : Result :=
  match p with
  | service :: pid :: _ => serve service pid s
  | _ => dropRequest .unsupportedObd s

/-- `RxErr` at LISTEN (R120). -/
def rxErrAtListen (s : State) : Result := .next (drop .linkError s)

end Sys2Proof.Machine
end

