-- ==== Sys2Proof/Machine/DataFrames.lean ====
section
/-! DEFINITION. The meanings of the rows SF, FF and CF at each receive point: LISTEN (R118), RX_WAIT (R116) and AWAIT_FC (R93:
a data frame there is unexpected, D10). -/

namespace Sys2Proof.Machine

/-- SF: a request at LISTEN (R118), a whole response at RX_WAIT (R100). -/
def execSf (p : List Byte) (s : State) : Result :=
  onReceive (acceptRequest p) (sfAtRxWait p) (fail .unexpectedFrame) s

/-- FF: the head of a long response at RX_WAIT (R101); a multi-frame request is dropped (R118). -/
def execFf (total : Len) (p : Bytes6) (s : State) : Result :=
  onReceive (dropRequest .unexpectedFrame) (ffAtRxWait total p) (fail .unexpectedFrame) s

/-- CF: the next chunk of a response at RX_WAIT (R102). -/
def execCf (seq : Nibble) (p : Bytes7) (s : State) : Result :=
  onReceive (dropRequest .unexpectedFrame) (cfAtRxWait seq p) (fail .unexpectedFrame) s

end Sys2Proof.Machine
end

