-- ==== Sys2Proof/Machine/FlowControl.lean ====
section
/-! DEFINITION. The meanings of the rows FC_CTS, FC_WAIT and FC_OVF at each receive point: LISTEN (a stale FC is dropped, R118,
R148), RX_WAIT (unexpected, R105) and AWAIT_FC (R90 to R92). -/

namespace Sys2Proof.Machine

/-- FC_CTS: grants credit to the waiting sender (R90). -/
def execFcCts (bs stmin : Byte) (s : State) : Result :=
  onReceive (dropRequest .unexpectedFrame) fcAtRxWait (clearToSend bs stmin) s

/-- FC_WAIT: the sender keeps waiting; bs and stmin are ignored (R91). -/
def execFcWait (_bs _stmin : Byte) (s : State) : Result :=
  onReceive (dropRequest .unexpectedFrame) fcAtRxWait keepWaiting s

/-- FC_OVF: the sender aborts with Overflow (R92). -/
def execFcOvf (_bs _stmin : Byte) (s : State) : Result :=
  onReceive (dropRequest .unexpectedFrame) fcAtRxWait (fail .overflow) s

end Sys2Proof.Machine
end

