-- ==== Sys2Proof/Machine/InvalidPci.lean ====
section
/-! DEFINITION. The meanings of the illegal rows (30_encoding.md R68). Each decodes to Invalid, which a simulator at LISTEN drops
(R118) and a session fails with MalformedPci (R94 at AWAIT_FC, R99 at RX_WAIT in either STATE). No byte of such a frame is
copied (R80). -/

namespace Sys2Proof.Machine

/-- The rule for `f = Invalid` at each receive point (R94, R99, R118). -/
def invalidFrame : State → Result :=
  onReceive (dropRequest .malformedPci) (fail .malformedPci) (fail .malformedPci)

/-- SF_LEN0_INVALID: a Single Frame of length 0 (R76). -/
def execSfLen0Invalid (s : State) : Result := invalidFrame s

/-- SF_LEN8_15_INVALID: a Single Frame of length 8..15 (R76). -/
def execSfLen8To15Invalid (_len : Nibble) (s : State) : Result := invalidFrame s

/-- FF_SHORT_INVALID: a First Frame of total 0..7 (R77). -/
def execFfShortInvalid (_total : Len) (s : State) : Result := invalidFrame s

/-- FC_RSV_3_INVALID: a Flow Control of status 3 (R79, D8). -/
def execFcRsv3Invalid (s : State) : Result := invalidFrame s

/-- FC_RSV_4_7_INVALID: a Flow Control of status 4..7 (R79, D8). -/
def execFcRsv4To7Invalid (_fs : Nibble) (s : State) : Result := invalidFrame s

/-- FC_RSV_8_15_INVALID: a Flow Control of status 8..15 (R79, D8). -/
def execFcRsv8To15Invalid (_fs : Nibble) (s : State) : Result := invalidFrame s

/-- PCI_4_7_INVALID: a frame type of 4..7 (R80). -/
def execPci4To7Invalid (_hn : Nibble) (s : State) : Result := invalidFrame s

/-- PCI_8_F_INVALID: a frame type of 8..15 (R80). -/
def execPci8ToFInvalid (_hn : Nibble) (s : State) : Result := invalidFrame s

end Sys2Proof.Machine
end

