-- ==== Sys2Proof/Machine/Obd.lean ====
section
/-! DEFINITION. The meanings of the obd rows (43_obd_dispatcher.md). A row is a Single or First Frame with a known payload, and
its meaning says what that frame does at every receive point: requests are served or dropped at LISTEN (R118, R107 to R112), any
SF or FF at RX_WAIT is taken as the response whatever its bytes (D29), and at AWAIT_FC it is unexpected (R93). -/

namespace Sys2Proof.Machine

/-- OBD_REQ_RPM (R109). -/
def execObdReqRpm (extra : List Byte) (s : State) : Result :=
  onReceive (serve 0x01 0x0C) (sfAtRxWait (0x01 :: 0x0C :: extra)) (fail .unexpectedFrame) s

/-- OBD_REQ_SPEED (R110). -/
def execObdReqSpeed (extra : List Byte) (s : State) : Result :=
  onReceive (serve 0x01 0x0D) (sfAtRxWait (0x01 :: 0x0D :: extra)) (fail .unexpectedFrame) s

/-- OBD_REQ_VIN (R111). -/
def execObdReqVin (extra : List Byte) (s : State) : Result :=
  onReceive (serve 0x09 0x02) (sfAtRxWait (0x09 :: 0x02 :: extra)) (fail .unexpectedFrame) s

/-- OBD_REQ_OTHER: SERVICE and PID are written and the request is dropped as UnsupportedObd (R112, R118). -/
def execObdReqOther (service pid : Byte) (extra : List Byte) (s : State) : Result :=
  onReceive (serve service pid) (sfAtRxWait (service :: pid :: extra)) (fail .unexpectedFrame) s

/-- OBD_REQ_SHORT: a request without a PID is dropped as UnsupportedObd, SERVICE and PID unwritten (R118, D14). -/
def execObdReqShort (p0 : Byte) (s : State) : Result :=
  onReceive (dropRequest .unsupportedObd) (sfAtRxWait [p0]) (fail .unexpectedFrame) s

/-- OBD_RSP_RPM: a response byte 0x41 is no supported service at LISTEN (R107). -/
def execObdRspRpm (rpm : BitVec 16) (s : State) : Result :=
  onReceive (serve 0x41 0x0C) (sfAtRxWait [0x41, 0x0C, highByte rpm, lowByte rpm]) (fail .unexpectedFrame) s

/-- OBD_RSP_SPEED. -/
def execObdRspSpeed (speed : Byte) (s : State) : Result :=
  onReceive (serve 0x41 0x0D) (sfAtRxWait [0x41, 0x0D, speed]) (fail .unexpectedFrame) s

/-- OBD_RSP_VIN_FF: the head of the VIN response (R101, R111). -/
def execObdRspVinFf (v0 v1 v2 : Byte) (s : State) : Result :=
  onReceive (dropRequest .unexpectedFrame) (ffAtRxWait 20 ⟨0x49, 0x02, 0x01, v0, v1, v2⟩) (fail .unexpectedFrame) s

end Sys2Proof.Machine
end

