-- ==== Sys2Proof/Machine/Dispatch.lean ====
section
/-! DEFINITION. What a received frame does: one arm per row of spec/opcode_table.json. -/

namespace Sys2Proof.Machine

def exec (i : Instr) (s : State) : Host.Outcome State Fault Refusal :=
  match i with
  | .sfLen0Invalid => Sys2Proof.Machine.execSfLen0Invalid s
  | .sfLen8To15Invalid len => Sys2Proof.Machine.execSfLen8To15Invalid len s
  | .sf p => Sys2Proof.Machine.execSf p s
  | .ffShortInvalid total => Sys2Proof.Machine.execFfShortInvalid total s
  | .ff total p => Sys2Proof.Machine.execFf total p s
  | .cf seq p => Sys2Proof.Machine.execCf seq p s
  | .fcCts bs stmin => Sys2Proof.Machine.execFcCts bs stmin s
  | .fcWait bs stmin => Sys2Proof.Machine.execFcWait bs stmin s
  | .fcOvf bs stmin => Sys2Proof.Machine.execFcOvf bs stmin s
  | .fcRsv3Invalid => Sys2Proof.Machine.execFcRsv3Invalid s
  | .fcRsv4To7Invalid fs => Sys2Proof.Machine.execFcRsv4To7Invalid fs s
  | .fcRsv8To15Invalid fs => Sys2Proof.Machine.execFcRsv8To15Invalid fs s
  | .pci4To7Invalid hn => Sys2Proof.Machine.execPci4To7Invalid hn s
  | .pci8ToFInvalid hn => Sys2Proof.Machine.execPci8ToFInvalid hn s
  | .obdReqRpm extra => Sys2Proof.Machine.execObdReqRpm extra s
  | .obdReqSpeed extra => Sys2Proof.Machine.execObdReqSpeed extra s
  | .obdReqVin extra => Sys2Proof.Machine.execObdReqVin extra s
  | .obdReqOther service pid extra => Sys2Proof.Machine.execObdReqOther service pid extra s
  | .obdReqShort p0 => Sys2Proof.Machine.execObdReqShort p0 s
  | .obdRspRpm rpm => Sys2Proof.Machine.execObdRspRpm rpm s
  | .obdRspSpeed speed => Sys2Proof.Machine.execObdRspSpeed speed s
  | .obdRspVinFf v0 v1 v2 => Sys2Proof.Machine.execObdRspVinFf v0 v1 v2 s

end Sys2Proof.Machine
end

