-- ==== Sys2Proof/Machine/Deliver.lean ====
section
/-! DEFINITION. The delivery of events to the block: which answer an outstanding handshake gets (10_state.md R17, R31, R33, R34),
the identifier filter (R113), link errors and timeouts (R120, R124, R125), and the other agents' turns (R32, R138). -/

namespace Sys2Proof.Machine

/-- A wait at a handshake: every register and PBUF keep their values (R137, R147). -/
def waitForAnswer (s : State) : Result := .next s

/-- The host's remaining commands, once the block accepted one. -/
def State.withHost (rest : List Request) (s : State) : State := { s with host := rest }

/-- The link's remaining answers to `Tx`s, once one was delivered after `delay`. -/
def State.withTxAnswers (rest : List TxAnswer) (delay : Nat) (s : State) : State :=
  { s with txAnswers := rest, now := s.now + delay }

/-- The link's remaining answers to `RxReq`s, once one was delivered after `delay`. -/
def State.withLink (rest : List LinkAnswer) (delay : Nat) (s : State) : State :=
  { s with link := rest, now := s.now + delay }

/-- The timer's remaining answers, once one was delivered after `delay`. -/
def State.withTimer (rest : List Nat) (delay : Nat) (s : State) : State :=
  { s with timer := rest, now := s.now + delay }

/-- The turns that remain once one was taken. -/
def State.withAgenda (rest : List Turn) (s : State) : State := { s with agenda := rest }

/-- `Cmd REQUEST` at IDLE_CMD: the block accepts the oldest command the host holds (R34, R114, D32). -/
def commandStep (s : State) : Result :=
  match s.host with
  | [] => waitForAnswer s
  | r :: rest => acceptCommand r (s.withHost rest)

/-- `TxOk` at a transmit point goes on with its rule, `TxErr` fails with LinkError (R124). -/
def txStep (txOk : State → Result) (s : State) : Result :=
  match s.txAnswers with
  | [] => waitForAnswer s
  | a :: rest =>
    if a.ok then txOk (s.withTxAnswers rest a.delay)
    else fail .linkError (s.withTxAnswers rest a.delay)

/-- `SleepDone` at SLEEP, no sooner than the delay asked for (R33). -/
def sleepStep (s : State) : Result :=
  match s.timer with
  | [] => waitForAnswer s
  | us :: rest =>
    if s.now + us < s.sleepDue then .refused .sleepTooShort
    else sleepDoneAtSleep (s.withTimer rest us)

/-- `emit RxReq` by the identifier filter: no register changes, and the wait that R125 measures goes on (R113). -/
def filtered (s : State) : State := { s with out := s.out ++ [.rxReq] }

/-- `Rx(id, d)`: a foreign identifier is dropped and `RxReq` emitted again, no register changed (R113); any other frame is
decoded in the receiver's view and executed. -/
def frameStep (v : View) (id : CanId) (d : Frame) (s : State) : Result :=
  if id = s.cfg.rxId then exec (decode v d) s else .next (filtered s)

/-- `RxErr`: no session exists at LISTEN (R120), elsewhere the session fails (R124, R126). -/
def rxErrStep (s : State) : Result := if s.ctrl = .listen then rxErrAtListen s else fail .linkError s

/-- `Timeout`: only with HAS_TIMEOUT, never at LISTEN, and no earlier than N_TIMEOUT_US after the wait started (R125). -/
def timeoutStep (s : State) : Result :=
  if s.cfg.hasTimeout = true ∧ s.ctrl ≠ .listen ∧ s.rxReqAt + s.cfg.nTimeoutUs ≤ s.now then fail .timeout s
  else .refused .timeoutNotAllowed

/-- The link's next answer at a receive point. -/
def linkStep (v : View) (s : State) : Result :=
  match s.link with
  | [] => waitForAnswer s
  | ⟨delay, .frame id d⟩ :: rest => frameStep v id d (s.withLink rest delay)
  | ⟨delay, .err⟩ :: rest => rxErrStep (s.withLink rest delay)
  | ⟨delay, .timeout⟩ :: rest => timeoutStep (s.withLink rest delay)

/-- The block's step: the answer to the handshake that CTRL says is outstanding (R17). HALT is a stuck state (R141). -/
def blockStep (s : State) : Result :=
  match s.ctrl with
  | .idleCmd => commandStep s
  | .txReq => txStep txOkAtTxReq s
  | .rxWait => linkStep .response s
  | .txFc => txStep txOkAtTxFc s
  | .listen => linkStep .request s
  | .txSf => txStep txOkAtTxSf s
  | .txFf => txStep txOkAtTxFf s
  | .awaitFc => linkStep .frame s
  | .sleep => sleepStep s
  | .txCf => txStep txOkAtTxCf s
  | .halt => waitForAnswer s

/-- The data-source agent writes both of its values (R32, R146). -/
def dataWrite (rpm : BitVec 16) (speed : Byte) (s : State) : State := { s with rpm := rpm, speed := speed }

/-- One turn of the system: the agent whose turn it is moves (R36). -/
def turnStep (s : State) : Result :=
  match s.agenda with
  | [] => blockStep s
  | .block :: rest => blockStep (s.withAgenda rest)
  | .dataWrite rpm speed :: rest => .next (dataWrite rpm speed (s.withAgenda rest))
  | .reset linkOk :: rest => .next ((s.withAgenda rest).bootFrom linkOk)

/-! ## Placing a frame where the next step receives it -/

/-- The receive point of a view, in the role that has it. -/
def receivePoint (v : View) (s : State) : State :=
  match v with
  | .response => { s with cfg := { s.cfg with role := .tester }, ctrl := .rxWait, sess := .idle }
  | .request => { s with cfg := { s.cfg with role := .simulator }, ctrl := .listen, sess := .idle }
  | .frame => { s with cfg := { s.cfg with role := .simulator }, ctrl := .awaitFc, sess := .awaitFlow }

/-- The block stands at a receive point that reads the frame as the view does. -/
def readsAs (v : View) (d : Frame) (s : State) : Bool :=
  match s.ctrl.view with
  | some v' => decide (decode v' d = decode v d)
  | none => false

/-- The state in which the block's next step receives `d`, read as the view reads it. -/
def placeFrame (v : View) (d : Frame) (s : State) : State :=
  let s := if readsAs v d s then s else receivePoint v s
  { s with link := ⟨0, .frame s.cfg.rxId d⟩ :: s.link, agenda := .block :: s.agenda }

end Sys2Proof.Machine
end

