-- ==== Sys2Proof/Machine/Step.lean ====
section
/-! DEFINITION. One step of the machine, and where a table word is placed so that the next step runs it. -/

namespace Sys2Proof.Machine

/-- One step: one agent's turn, one atomic transition (R15, R18, R127). -/
def step (s : State) : Host.Outcome State Fault Refusal := turnStep s

/-- `s` with the frame of a table word as the link's next answer, at a receive point that reads it as `decodeTableWord` does. -/
def State.withFetchWord (s : State) (nbits w : Nat) : State :=
  placeFrame (tableView (tableFrame nbits w)) (tableFrame nbits w) s

end Sys2Proof.Machine
end

