-- ==== Sys2Proof/Safety.lean ====
section
/-! DEFINITION. What counts as a legal state and a safe run: the invariants of 10_state.md R37 and R40, and the well-behaved
environment of R31, R33 and R125. -/

namespace Sys2Proof.Machine

/-! ## The table of R17 -/

/-- The role column. -/
def Ctrl.inRole : Ctrl → Role → Bool
  | .idleCmd, r | .txReq, r | .rxWait, r | .txFc, r => r == .tester
  | .listen, r | .txSf, r | .txFf, r | .awaitFc, r | .sleep, r | .txCf, r => r == .simulator
  | .halt, _ => true

/-- The column "STATE while here". -/
def Ctrl.allowsState : Ctrl → SessionState → Bool
  | .rxWait, st => st == .idle || st == .awaitCons
  | .txFc, st => st == .awaitCons
  | .awaitFc, st => st == .awaitFlow
  | .sleep, st | .txCf, st => st == .sendCons
  | .idleCmd, st | .txReq, st | .listen, st | .txSf, st | .txFf, st | .halt, st => st == .idle

/-- A transaction runs at every control point but IDLE_CMD, LISTEN and HALT (R29, R34). -/
def Ctrl.inTransaction : Ctrl → Bool
  | .idleCmd | .listen | .halt => false
  | .txReq | .rxWait | .txFc | .txSf | .txFf | .awaitFc | .sleep | .txCf => true

/-- The control points with a `Tx` outstanding (R30). -/
def Ctrl.transmits : Ctrl → Bool
  | .txReq | .txFc | .txSf | .txFf | .txCf => true
  | .idleCmd | .rxWait | .listen | .awaitFc | .sleep | .halt => false

/-- A receiver session between its FF and its last CF (R37 item 2). -/
def State.midReceive (s : State) : Bool := s.ctrl == .txFc || (s.ctrl == .rxWait && s.sess == .awaitCons)

/-- A sender session between its FF and its last CF (R37 item 3). -/
def State.midSend (s : State) : Bool := s.ctrl == .awaitFc || s.ctrl == .sleep || s.ctrl == .txCf

/-- Any control point of a sender session. -/
def State.inSend (s : State) : Bool := s.midSend || s.ctrl == .txSf || s.ctrl == .txFf

/-- A tester whose last transaction ended Done. -/
def State.resultReady (s : State) : Bool := s.cfg.role == .tester && s.status == .done

/-- The registers that the rules of a control point read before any rule writes them carry the written mark (R40, R38). -/
def State.readsWritten (s : State) : Bool :=
  (!s.ctrl.transmits || s.written.txf)
    && (!(s.ctrl == .txReq || s.ctrl == .rxWait || s.ctrl == .txFc) || s.written.cap)
    && (!(s.midReceive || s.inSend) || (s.written.total && s.written.cursor))
    && (!(s.midReceive || s.midSend) || s.written.seq)
    && (!(s.midReceive || s.ctrl == .sleep || s.ctrl == .txCf)
          || (s.written.credit && s.written.creditInf && s.written.bs && s.written.stmin))
    && (!s.resultReady || s.written.resultLen)

/-! ## The invariant -/

/-- What holds between any two steps of a run from reset, in both roles (R37, R40). -/
structure State.Inv (s : State) : Prop where
  /-- PBUF keeps its canonical form: no offset of 4095 or more (R41). -/
  pbufForm : memWf s.pbuf = true
  /-- The role column of R17. -/
  ctrlInRole : s.ctrl.inRole s.cfg.role = true
  /-- R37 item 5. -/
  stateAgrees : s.ctrl.allowsState s.sess = true
  /-- FAIL_CODE values 9..15 are never written (R29). -/
  failCodeLegal : s.failCode.toNat ≤ 8
  /-- FAIL_CODE is written with STATUS <- FAILED (R29). -/
  failedHasCode : s.status = .failed → s.failCode ≠ 0
  /-- STATUS is BUSY exactly while a transaction runs (R29). -/
  busyInTransaction : s.status = .busy ↔ s.ctrl.inTransaction = true
  /-- DIR agrees with the role during a transaction (R20). -/
  direction : s.ctrl.inTransaction = true → s.dir = (if s.cfg.role = .tester then .receiving else .sending)
  /-- R37 item 1. -/
  cursorInTotal : s.cursor.toNat ≤ s.total.toNat
  /-- A response SF holds 1..7 bytes, a response FF stands for 8 or more (R62, R63). -/
  responseStart : (s.ctrl = .txSf → 1 ≤ s.total.toNat ∧ s.total.toNat ≤ 7) ∧ (s.ctrl = .txFf → 8 ≤ s.total.toNat)
  /-- R37 items 2 and 3: CURSOR is 6 and the whole chunks since, SEQ one more than the number of chunks. -/
  midMessage : s.midReceive = true ∨ s.midSend = true →
    6 ≤ s.cursor.toNat ∧ s.cursor.toNat < s.total.toNat ∧ 8 ≤ s.total.toNat ∧ (s.cursor.toNat - 6) % 7 = 0 ∧
      s.seq.toNat = ((s.cursor.toNat - 6) / 7 + 1) % 16
  /-- R37 item 1 for receivers, and BS, STMIN at the receiver's parameters (R24, R25). -/
  receiverRegs : s.midReceive = true →
    s.total.toNat ≤ s.cap.toNat ∧ s.bs = s.cfg.rxBs ∧ s.stmin = s.cfg.rxStmin ∧ s.creditInf = creditInfOf s.bs
  /-- R37 item 4, and the same for a receiver that awaits a CF. -/
  creditLeft : s.midReceive = true ∨ s.ctrl = .sleep ∨ s.ctrl = .txCf → s.creditExhausted = false
  /-- The sender reads only bytes that the dispatch wrote (R44). -/
  sendLoaded : s.inSend = true → ∀ a < s.total.toNat, (memRead s.pbuf a).isSome = true
  /-- The receiver has copied CURSOR bytes (R21). -/
  receiveCopied : s.midReceive = true → ∀ a < s.cursor.toNat, (memRead s.pbuf a).isSome = true
  /-- After `Complete(Ok(len))` the host finds `len` bytes (R45). -/
  resultCopied : s.resultReady = true →
    s.resultLen = s.total ∧ ∀ a < s.resultLen.toNat, (memRead s.pbuf a).isSome = true
  /-- TXF holds the block's identifier while its handshake is outstanding (R30). -/
  txfIdentifier : s.ctrl.transmits = true → s.txf.id = s.cfg.txId
  /-- No rule reads an unwritten register before writing it (R40). -/
  marks : s.readsWritten = true

/-! ## The environment -/

/-- The next event is one the environment may deliver (R17, R33, R125): the timer is not early and no `Timeout` comes where R125
allows none. -/
def State.envLegal (s : State) : Bool :=
  match s.agenda with
  | .dataWrite _ _ :: _ | .reset _ :: _ => true
  | [] | .block :: _ =>
    match s.ctrl with
    | .sleep =>
      match s.timer with
      | [] => true
      | us :: _ => decide (s.sleepDue ≤ s.now + us)
    | .rxWait | .awaitFc | .listen =>
      match s.link with
      | ⟨delay, .timeout⟩ :: _ =>
        s.cfg.hasTimeout && s.ctrl != .listen && decide (s.rxReqAt + s.cfg.nTimeoutUs ≤ s.now + delay)
      | _ => true
    | .idleCmd | .txReq | .txFc | .txSf | .txFf | .txCf | .halt => true

/-! ## What one step emits and stores -/

/-- The emissions of a step from `s` to `t`. -/
def emitted (s t : State) : List Output := t.out.drop s.out.length

/-- The completions among a block's emissions, in order (R34). -/
def completions : List Output → List Completion
  | [] => []
  | .complete r :: os => r :: completions os
  | .rxReq :: os | .sleep _ :: os | .tx _ _ :: os | .log _ :: os => completions os

/-- The frames among a block's emissions, in order. -/
def transmitted : List Output → List Frame
  | [] => []
  | .tx _ d :: os => d :: transmitted os
  | .rxReq :: os | .sleep _ :: os | .complete _ :: os | .log _ :: os => transmitted os

/-- Where a received frame's `MemWrite` goes and what it writes (R43: the SF copy of R100, the FF copy of R101, the CF copy of R102
and the dispatch load of R118), each with the checks its rule makes first. -/
def frameStores (f : TypedFrame) (s : State) : Option (Nat × List Byte) :=
  match f, s.ctrl, s.sess with
  | .sf (service :: pid :: _), .listen, _ => (dispatch service pid s.snapshot s.cfg.vin).map fun r => (0, r)
  | .sf p, .rxWait, .idle => if p.length ≤ s.cap.toNat then some (0, p) else none
  | .ff total p, .rxWait, .idle => if total.toNat ≤ s.cap.toNat then some (0, p.toList) else none
  | .cf seq p, .rxWait, .awaitCons =>
    if seq = s.seq ∧ s.cursor.toNat + min 7 (s.total.toNat - s.cursor.toNat) ≤ s.cap.toNat then
      some (s.cursor.toNat, p.toList.take (min 7 (s.total.toNat - s.cursor.toNat)))
    else none
  | _, _, _ => none

/-! ## The frames of a message -/

/-- The CFs of the bytes after the FF, from a sequence number on (R98 items 1 and 2). -/
def consecutiveFrames (fill : Byte) (seq : Nibble) : Nat → List Byte → List Frame
  | 0, _ => []
  | _ + 1, [] => []
  | n + 1, p :: ps =>
    padded fill (joinNibbles 0x2 seq) ((p :: ps).take 7) :: consecutiveFrames fill (nextSeq seq) n ((p :: ps).drop 7)

/-- The frames of a message of 8..4095 bytes: its FF and its CFs, numbered from 1 (R98). -/
def messageFrames (fill : Byte) (msg : List Byte) : List Frame :=
  match msg with
  | p0 :: p1 :: p2 :: p3 :: p4 :: p5 :: rest =>
    ffFrame (BitVec.ofNat 12 msg.length) ⟨p0, p1, p2, p3, p4, p5⟩ :: consecutiveFrames fill 1 rest.length rest
  | _ => []

end Sys2Proof.Machine
end

