-- ==== Sys2Proof/Certificates/Slice0/Obligations.lean ====
section
/-! DEFINITION. The statements for the provers. A full-state equation `exec i s = .next { s with … }` says the result, the
completion and the frame at once: every field that is not named keeps its value. Bytes a statement expects on the wire are written
out from the spec's own formulas, not by the model's encoder, wherever the rule gives a formula.

The fields `written`, `now`, `rxReqAt`, `sleepDue` and `out` in these equations are the model's own (log entries 2, 10 and 12), and so
are the agents' lists (log entry 4); the rules a statement cites speak of the other fields and of what is emitted. -/

open Sys2Proof Sys2Proof.Machine

/-! ## The codec -/

/-- Frames of 95_test_vectors.md B.1 and the rows they fall under. -/
def Obligations.DecodeReadsVectors : Prop :=
  decode .frame ⟨0x03, 0x41, 0x0D, 0x55, 0xAA, 0xAA, 0xAA, 0xAA⟩ = .sf [0x41, 0x0D, 0x55] ∧
  decode .frame ⟨0x10, 0x14, 0x49, 0x02, 0x01, 0x4B, 0x4D, 0x48⟩ = .ff 20 ⟨0x49, 0x02, 0x01, 0x4B, 0x4D, 0x48⟩ ∧
  decode .frame ⟨0x21, 0x43, 0x37, 0x35, 0x4C, 0x44, 0x30, 0x4D⟩ = .cf 1 ⟨0x43, 0x37, 0x35, 0x4C, 0x44, 0x30, 0x4D⟩ ∧
  decode .frame ⟨0x31, 0x05, 0xF1, 0xAA, 0xAA, 0xAA, 0xAA, 0xAA⟩ = .fcWait 0x05 0xF1 ∧
  decode .frame ⟨0x3F, 0xAA, 0xAA, 0xAA, 0xAA, 0xAA, 0xAA, 0xAA⟩ = .fcRsv8To15Invalid 15 ∧
  decode .frame ⟨0x10, 0x07, 0xAA, 0xAA, 0xAA, 0xAA, 0xAA, 0xAA⟩ = .ffShortInvalid 7 ∧
  decode .frame ⟨0xF0, 0xAA, 0xAA, 0xAA, 0xAA, 0xAA, 0xAA, 0xAA⟩ = .pci8ToFInvalid 15 ∧
  decode .request ⟨0x02, 0x01, 0x0C, 0xAA, 0xAA, 0xAA, 0xAA, 0xAA⟩ = .obdReqRpm [] ∧
  decode .request ⟨0x02, 0x01, 0x42, 0xAA, 0xAA, 0xAA, 0xAA, 0xAA⟩ = .obdReqOther 0x01 0x42 [] ∧
  decode .response ⟨0x04, 0x41, 0x0C, 0x0A, 0xBC, 0xAA, 0xAA, 0xAA⟩ = .obdRspRpm 0x0ABC

/-- `Decode` by the document's own formulas: R75 classifies by the high nibble, R76 to R80 read the fields with masks and shifts. -/
def Obligations.DecodeBySourceFormulas : Prop :=
  ∀ d : Frame,
    (d.d0 >>> 4 = 0x00 →
      ((d.d0 &&& 0x0F).toNat = 0 ∨ 7 < (d.d0 &&& 0x0F).toNat → typedFrame d = .invalid) ∧
      (1 ≤ (d.d0 &&& 0x0F).toNat → (d.d0 &&& 0x0F).toNat ≤ 7 →
        typedFrame d = .sf ([d.d1, d.d2, d.d3, d.d4, d.d5, d.d6, d.d7].take (d.d0 &&& 0x0F).toNat))) ∧
    (d.d0 >>> 4 = 0x01 → ∀ total : Len, total = (((d.d0 &&& 0x0F).setWidth 12) <<< 8) ||| d.d1.setWidth 12 →
      (total.toNat ≤ 7 → typedFrame d = .invalid) ∧
      (7 < total.toNat → typedFrame d = .ff total ⟨d.d2, d.d3, d.d4, d.d5, d.d6, d.d7⟩)) ∧
    (d.d0 >>> 4 = 0x02 →
      typedFrame d = .cf ((d.d0 &&& 0x0F).setWidth 4) ⟨d.d1, d.d2, d.d3, d.d4, d.d5, d.d6, d.d7⟩) ∧
    (d.d0 >>> 4 = 0x03 →
      (d.d0 &&& 0x0F = 0 → typedFrame d = .fc .cts d.d1 d.d2) ∧
      (d.d0 &&& 0x0F = 1 → typedFrame d = .fc .wait d.d1 d.d2) ∧
      (d.d0 &&& 0x0F = 2 → typedFrame d = .fc .ovf d.d1 d.d2) ∧
      (3 ≤ (d.d0 &&& 0x0F).toNat → typedFrame d = .invalid)) ∧
    (4 ≤ (d.d0 >>> 4).toNat → typedFrame d = .invalid)

/-- Every well-formed instruction is read back from its frame, whatever the fill byte, in every view that shows its row. -/
def Obligations.DecodeEncodeRoundTrip : Prop :=
  ∀ (v : View) (fill : Byte) (i : Instr), i.wf = true → i.visibleIn v = true → decode v (encode fill i) = i

/-- Every frame has a row, its fields in the row's ranges, and only rows of the view are answered. -/
def Obligations.DecodedIsWellFormed : Prop :=
  ∀ (v : View) (d : Frame), (decode v d).wf = true ∧ (decode v d).visibleIn v = true

/-- The rows refine `Decode`: in every view the row of a frame stands for what R75 makes of it. -/
def Obligations.RowsRefineDecode : Prop :=
  ∀ (v : View) (d : Frame), (decode v d).typed = typedFrame d

/-- The decoder and the match and mask columns of spec/opcode_table.json agree on every frame word: the first frame row that matches
classifies it, and the obd rows apply on top (R74). -/
def Obligations.DecoderAgreesWithOpcodeTable : Prop :=
  ∀ (v : View) (w : FrameWord), tableMnemonic v w = some (decode v (Frame.ofWord w)).mnemonic

/-- Two frames that agree on the bytes that carry fields have the same row: the bytes after them are ignored (R69). -/
def Obligations.FillBytesAreIgnored : Prop :=
  ∀ (v : View) (d d' : Frame), d'.toList.take (fieldBytes d) = d.toList.take (fieldBytes d) → decode v d' = decode v d

/-- The layouts of R81 to R84, in the rules' own formulas: `[n] ++ p ++ FILL×(7 - n)`, `[0x10 | total[11:8], total[7:0]] ++ p`,
`[0x20 | seq] ++ p ++ FILL×(7 - n)`, `[0x30 | fs, bs, stmin] ++ FILL×5`, and the errors. -/
def Obligations.EncodersLayOutFrames : Prop :=
  (∀ (fill : Byte) (p : List Byte),
    (p.length = 0 ∨ 7 < p.length → encodeSF fill p = .malformedPci) ∧
    (1 ≤ p.length → p.length ≤ 7 → ∃ d, encodeSF fill p = .frame d ∧
      d.toList = BitVec.ofNat 8 p.length :: p ++ List.replicate (7 - p.length) fill)) ∧
  (∀ (total : Len) (p : List Byte), p.length = 6 →
    (total.toNat ≤ 7 → encodeFF total p = .malformedPci) ∧
    (7 < total.toNat → ∃ d, encodeFF total p = .frame d ∧
      d.toList = (0x10 ||| (total >>> 8).setWidth 8) :: total.setWidth 8 :: p)) ∧
  (∀ (fill : Byte) (seq : Nibble) (p : List Byte),
    (p.length = 0 ∨ 7 < p.length → encodeCF fill seq p = .outsideContract) ∧
    (1 ≤ p.length → p.length ≤ 7 → ∃ d, encodeCF fill seq p = .frame d ∧
      d.toList = (0x20 ||| seq.setWidth 8) :: p ++ List.replicate (7 - p.length) fill)) ∧
  (∀ (fill bs stmin : Byte),
    (encodeFC fill .cts bs stmin).toList = [0x30, bs, stmin] ++ List.replicate 5 fill ∧
    (encodeFC fill .wait bs stmin).toList = [0x31, bs, stmin] ++ List.replicate 5 fill ∧
    (encodeFC fill .ovf bs stmin).toList = [0x32, bs, stmin] ++ List.replicate 5 fill)

/-- The sender's separation delay (R85, the table of R66). -/
def Obligations.StminConversion : Prop :=
  ∀ v : Byte,
    (v.toNat ≤ 0x7F → stminToUs v = v.toNat * 1000) ∧
    (0x80 ≤ v.toNat → v.toNat ≤ 0xF0 → stminToUs v = 127000) ∧
    (0xF1 ≤ v.toNat → v.toNat ≤ 0xF9 → stminToUs v = (v.toNat - 0xF0) * 100) ∧
    (0xFA ≤ v.toNat → stminToUs v = 127000) ∧
    stminToUs v ≤ 127000

/-! ## PBUF and the end of a session -/

/-- `MemWrite` puts `bytes[i]` at offset `a+i` and leaves every other offset alone (R43, R44). -/
def Obligations.PbufReadsBackWrites : Prop :=
  ∀ (m : List Host.Cell) (a x : Nat) (bytes : List Byte),
    memRead (memWriteList m a bytes) x =
      if a ≤ x ∧ x < a + bytes.length then bytes[x - a]? else memRead m x

/-- `raise Fail(kind)` (R122), in both roles. -/
def Obligations.FailEndsSession : Prop :=
  ∀ (k : ErrorKind) (s : State),
    (s.cfg.role = .tester → raiseFail k s =
      { s with
        status := .failed, failCode := k.code, sess := .idle, ctrl := .idleCmd,
        out := s.out ++ [.log k, .complete (.err k)] }) ∧
    (s.cfg.role = .simulator → raiseFail k s =
      { s with
        status := .failed, failCode := k.code, sess := .idle, ctrl := .listen, rxReqAt := s.now,
        out := s.out ++ [.log k, .rxReq] })

/-- `raise Done` (R123), in both roles. -/
def Obligations.DoneEndsSession : Prop :=
  ∀ s : State,
    (s.cfg.role = .tester → raiseDone s =
      { s with
        status := .done, sess := .idle, ctrl := .idleCmd, resultLen := s.total,
        written := { s.written with resultLen := true }, out := s.out ++ [.complete (.ok s.total)] }) ∧
    (s.cfg.role = .simulator → raiseDone s =
      { s with status := .done, sess := .idle, ctrl := .listen, rxReqAt := s.now, out := s.out ++ [.rxReq] })

/-- `Drop(kind)` (R119): the FAIL_CODE is the kind's of R121. -/
def Obligations.DropKeepsListening : Prop :=
  ∀ (k : ErrorKind) (s : State),
    drop k s =
      { s with status := .failed, failCode := k.code, rxReqAt := s.now, out := s.out ++ [.log k, .rxReq] }

/-- The FAIL_CODE values of R121, and the other encodings of R17, R19, R20 and R29. -/
def Obligations.RegisterEncodings : Prop :=
  [ErrorKind.malformedPci, .seqMismatch, .unexpectedFrame, .bufferTooSmall, .overflow, .timeout, .linkError,
      .unsupportedObd].map ErrorKind.code = [1, 2, 3, 4, 5, 6, 7, 8] ∧
  [Ctrl.idleCmd, .txReq, .rxWait, .txFc, .listen, .txSf, .txFf, .awaitFc, .sleep, .txCf, .halt].map Ctrl.code
    = [0, 1, 2, 3, 4, 5, 6, 7, 8, 9, 10] ∧
  [SessionState.idle, .awaitFlow, .sendCons, .awaitCons].map SessionState.code = [0, 1, 2, 3] ∧
  [Status.none, .busy, .done, .failed].map Status.code = [0, 1, 2, 3] ∧
  [Direction.sending, .receiving].map Direction.code = [0, 1]

/-! ## The illegal rows -/

/-- Each illegal row is dropped at LISTEN (R118) and fails the session with MalformedPci at RX_WAIT, in either STATE (R99), and at
AWAIT_FC (R94). -/
def Obligations.IllegalRowsAreMalformed : Prop :=
  ∀ (len fs hn : Nibble) (total : Len) (s : State),
    ∀ i ∈ [Instr.sfLen0Invalid, .sfLen8To15Invalid len, .ffShortInvalid total, .fcRsv3Invalid, .fcRsv4To7Invalid fs,
        .fcRsv8To15Invalid fs, .pci4To7Invalid hn, .pci8ToFInvalid hn],
      (s.ctrl = .listen → exec i s = .next (drop .malformedPci s)) ∧
      (s.ctrl = .rxWait → exec i s = .next (raiseFail .malformedPci s)) ∧
      (s.ctrl = .awaitFc → exec i s = .next (raiseFail .malformedPci s))

/-! ## Rows at LISTEN -/

/-- OBD_REQ_RPM at LISTEN (R118, R109, R87): the four response bytes in PBUF, and the SF `[04 41 0C hi lo FILL FILL FILL]`. -/
def Obligations.RpmRequestServed : Prop :=
  ∀ (extra : List Byte) (s : State), s.ctrl = .listen →
    let hi : Byte := (s.rpm >>> 8).setWidth 8
    let lo : Byte := s.rpm.setWidth 8
    let d : Frame := ⟨0x04, 0x41, 0x0C, hi, lo, s.cfg.fill, s.cfg.fill, s.cfg.fill⟩
    exec (.obdReqRpm extra) s = .next
      { s with
        service := 0x01, pid := 0x0C, pbuf := memWriteList s.pbuf 0 [0x41, 0x0C, hi, lo], dir := .sending, total := 4,
        cursor := 0, sess := .idle, status := .busy, ctrl := .txSf, txf := ⟨s.cfg.txId, d⟩,
        written :=
          { s.written with service := true, pid := true, dir := true, total := true, cursor := true, txf := true },
        out := s.out ++ [.tx s.cfg.txId d] }

/-- OBD_REQ_SPEED at LISTEN (R118, R110, R87): the SF `[03 41 0D sp FILL FILL FILL FILL]`. -/
def Obligations.SpeedRequestServed : Prop :=
  ∀ (extra : List Byte) (s : State), s.ctrl = .listen →
    let d : Frame := ⟨0x03, 0x41, 0x0D, s.speed, s.cfg.fill, s.cfg.fill, s.cfg.fill, s.cfg.fill⟩
    exec (.obdReqSpeed extra) s = .next
      { s with
        service := 0x01, pid := 0x0D, pbuf := memWriteList s.pbuf 0 [0x41, 0x0D, s.speed], dir := .sending, total := 3,
        cursor := 0, sess := .idle, status := .busy, ctrl := .txSf, txf := ⟨s.cfg.txId, d⟩,
        written :=
          { s.written with service := true, pid := true, dir := true, total := true, cursor := true, txf := true },
        out := s.out ++ [.tx s.cfg.txId d] }

/-- OBD_REQ_VIN at LISTEN (R118, R111, R87): twenty bytes in PBUF, and the FF `[10 14 49 02 01 v0 v1 v2]`. -/
def Obligations.VinRequestServed : Prop :=
  ∀ (extra : List Byte) (s : State), s.ctrl = .listen →
    let d : Frame := ⟨0x10, 0x14, 0x49, 0x02, 0x01, s.cfg.vin[0], s.cfg.vin[1], s.cfg.vin[2]⟩
    exec (.obdReqVin extra) s = .next
      { s with
        service := 0x09, pid := 0x02, pbuf := memWriteList s.pbuf 0 (0x49 :: 0x02 :: 0x01 :: s.cfg.vin.toList),
        dir := .sending, total := 20, cursor := 0, sess := .idle, status := .busy, ctrl := .txFf, txf := ⟨s.cfg.txId, d⟩,
        written :=
          { s.written with service := true, pid := true, dir := true, total := true, cursor := true, txf := true },
        out := s.out ++ [.tx s.cfg.txId d] }

/-- OBD_REQ_OTHER and OBD_REQ_SHORT at LISTEN (R112, R118): dropped as UnsupportedObd, nothing transmitted; SERVICE and PID are
written for the first and not for the second. -/
def Obligations.UnsupportedRequestsDropped : Prop :=
  ∀ (service pid : Byte) (extra : List Byte) (s : State), s.ctrl = .listen →
    (Instr.wf (.obdReqOther service pid extra) = true →
      exec (.obdReqOther service pid extra) s = .next
        { s with
          service := service, pid := pid, written := { s.written with service := true, pid := true },
          status := .failed, failCode := 8, rxReqAt := s.now, out := s.out ++ [.log .unsupportedObd, .rxReq] }) ∧
    exec (.obdReqShort service) s = .next
      { s with
        status := .failed, failCode := 8, rxReqAt := s.now, out := s.out ++ [.log .unsupportedObd, .rxReq] }

/-- The step of R118 for any frame: `Decode`, then the three drops, then the dispatcher, the load of PBUF and `SEND`. -/
def Obligations.RequestAcceptance : Prop :=
  ∀ (v : View) (d : Frame) (s : State), s.ctrl = .listen →
    exec (decode v d) s =
      match typedFrame d with
      | .invalid => .next (drop .malformedPci s)
      | .ff _ _ | .cf _ _ | .fc _ _ _ => .next (drop .unexpectedFrame s)
      | .sf p =>
        if p.length < 2 then .next (drop .unsupportedObd s)
        else
          let s1 := { s with service := d.d1, pid := d.d2, written := { s.written with service := true, pid := true } }
          match dispatch d.d1 d.d2 ⟨s.rpm, s.speed⟩ s.cfg.vin with
          | none => .next (drop .unsupportedObd s1)
          | some r => send (BitVec.ofNat 12 r.length) { s1 with pbuf := memWriteList s1.pbuf 0 r }

/-! ## Rows at RX_WAIT -/

/-- A Single Frame at RX_WAIT with STATE = Idle (R100), for every row whose frames are Single Frames: SF, OBD_REQ_RPM,
OBD_REQ_SPEED, OBD_REQ_VIN, OBD_REQ_OTHER, OBD_REQ_SHORT, OBD_RSP_RPM and OBD_RSP_SPEED (D29: the payload is not checked). -/
def Obligations.SingleFrameReceived : Prop :=
  ∀ (i : Instr) (p : List Byte) (s : State),
    i.wf = true → i.typed = .sf p → s.ctrl = .rxWait → s.sess = .idle →
    (s.cap.toNat < p.length → exec i s = .next (raiseFail .bufferTooSmall s)) ∧
    (p.length ≤ s.cap.toNat → exec i s = .next (raiseDone
      { s with
        pbuf := memWriteList s.pbuf 0 p, total := BitVec.ofNat 12 p.length, cursor := BitVec.ofNat 12 p.length,
        written := { s.written with total := true, cursor := true } }))

/-- OBD_RSP_RPM and OBD_RSP_SPEED at RX_WAIT with STATE = Idle and room for them: the host reads the response of R109 or R110, high
byte first (R46), and the transaction is over. -/
def Obligations.ResponsesReachTheHost : Prop :=
  ∀ (rpm : BitVec 16) (speed : Byte) (s : State),
    s.ctrl = .rxWait → s.sess = .idle → s.cfg.role = .tester →
    (4 ≤ s.cap.toNat → ∃ t, exec (.obdRspRpm rpm) s = .next t ∧ t.ctrl = .idleCmd ∧ t.status = .done ∧
      t.hostPayload = some ([0x41, 0x0C, (rpm >>> 8).setWidth 8, rpm.setWidth 8] : List Byte) ∧ t.out = s.out ++ [.complete (.ok 4)]) ∧
    (3 ≤ s.cap.toNat → ∃ t, exec (.obdRspSpeed speed) s = .next t ∧ t.ctrl = .idleCmd ∧ t.status = .done ∧
      t.hostPayload = some ([0x41, 0x0D, speed] : List Byte) ∧ t.out = s.out ++ [.complete (.ok 3)])

/-- A First Frame at RX_WAIT with STATE = Idle (R101), for the rows FF and OBD_RSP_VIN_FF: the copy, the session registers, and the
FC(CTS, RX_BS, RX_STMIN) `[30 RX_BS RX_STMIN FILL×5]`; or BufferTooSmall and no FC. -/
def Obligations.FirstFrameReceived : Prop :=
  ∀ (i : Instr) (total : Len) (p : Bytes6) (s : State),
    i.wf = true → i.typed = .ff total p → s.ctrl = .rxWait → s.sess = .idle →
    let f := s.cfg.fill
    let d : Frame := ⟨0x30, s.cfg.rxBs, s.cfg.rxStmin, f, f, f, f, f⟩
    (s.cap.toNat < total.toNat → exec i s = .next (raiseFail .bufferTooSmall s)) ∧
    (total.toNat ≤ s.cap.toNat → exec i s = .next
      { s with
        pbuf := memWriteList s.pbuf 0 [p.p0, p.p1, p.p2, p.p3, p.p4, p.p5], total := total, cursor := 6, seq := 1,
        bs := s.cfg.rxBs, stmin := s.cfg.rxStmin, credit := s.cfg.rxBs, creditInf := decide (s.cfg.rxBs = 0),
        sess := .awaitCons, ctrl := .txFc, txf := ⟨s.cfg.txId, d⟩,
        written :=
          { s.written with
            total := true, cursor := true, seq := true, bs := true, stmin := true, credit := true, creditInf := true,
            txf := true },
        out := s.out ++ [.tx s.cfg.txId d] })

/-- A Consecutive Frame at RX_WAIT with STATE = AwaitCons (R102, R103), where R37 holds: SeqMismatch before any copy; else
`min(7, remaining)` bytes at CURSOR, and then Done, a new FC when the credit is used up, or the next `RxReq`. The capacity guard of R102
stops with a fault, as 93_implementation_defined.md item 21 rules (log entry 14). -/
def Obligations.ConsecutiveFrameReceived : Prop :=
  ∀ (seq : Nibble) (p : Bytes7) (s : State), s.ctrl = .rxWait → s.sess = .awaitCons →
    (seq ≠ s.seq → exec (.cf seq p) s = .next (raiseFail .seqMismatch s)) ∧
    (seq = s.seq → s.cursor.toNat ≤ s.total.toNat → (s.creditInf = true ∨ s.credit ≠ 0) →
      let n := min 7 (s.total.toNat - s.cursor.toNat)
      let f := s.cfg.fill
      let fc : Frame := ⟨0x30, s.bs, s.stmin, f, f, f, f, f⟩
      let s1 : State :=
        { s with
          pbuf := memWriteList s.pbuf s.cursor.toNat
            ([p.p0, p.p1, p.p2, p.p3, p.p4, p.p5, p.p6].take n),
          cursor := s.cursor + BitVec.ofNat 12 n, seq := s.seq + 1,
          credit := if s.creditInf = true then s.credit else s.credit - 1,
          written :=
            { s.written with cursor := true, seq := true, credit := s.written.credit || !s.creditInf } }
      (s.cap.toNat < s.cursor.toNat + n → exec (.cf seq p) s = .fault .capacityGuard) ∧
      (s.cursor.toNat + n ≤ s.cap.toNat →
        (s.cursor.toNat + n = s.total.toNat → exec (.cf seq p) s = .next (raiseDone s1)) ∧
        (s.cursor.toNat + n < s.total.toNat →
          (s.creditInf = false → s.credit = 1 → exec (.cf seq p) s = .next
            { s1 with
              credit := s.bs, ctrl := .txFc, txf := ⟨s.cfg.txId, fc⟩,
              written := { s1.written with credit := true, txf := true }, out := s.out ++ [.tx s.cfg.txId fc] }) ∧
          (s.creditInf = true ∨ s.credit ≠ 1 → exec (.cf seq p) s = .next
            { s1 with rxReqAt := s.now, out := s.out ++ [.rxReq] }))))

/-- The unexpected frame types at RX_WAIT (R105): CF and FC in Idle; SF, FF and FC in AwaitCons. -/
def Obligations.UnexpectedAtRxWait : Prop :=
  ∀ (i : Instr) (s : State), i.typed ≠ .invalid → s.ctrl = .rxWait →
    (s.sess = .idle → (∀ p, i.typed ≠ .sf p) → (∀ total p, i.typed ≠ .ff total p) →
      exec i s = .next (raiseFail .unexpectedFrame s)) ∧
    (s.sess = .awaitCons → (∀ seq p, i.typed ≠ .cf seq p) → exec i s = .next (raiseFail .unexpectedFrame s))

/-! ## Rows at AWAIT_FC -/

/-- FC_CTS at AWAIT_FC with bytes left (R90, R95): the sender records bs and stmin and sleeps before the next CF. -/
def Obligations.ClearToSendGrantsCredit : Prop :=
  ∀ (bs stmin : Byte) (s : State), s.ctrl = .awaitFc → s.cursor ≠ s.total →
    exec (.fcCts bs stmin) s = .next
      { s with
        bs := bs, stmin := stmin, credit := bs, creditInf := decide (bs = 0), sess := .sendCons, ctrl := .sleep,
        written := { s.written with bs := true, stmin := true, credit := true, creditInf := true },
        sleepDue := s.now + stminToUs stmin, out := s.out ++ [.sleep (stminToUs stmin)] }

/-- FC_WAIT at AWAIT_FC (R91): no register changes, `RxReq` is emitted again. -/
def Obligations.WaitChangesNoRegister : Prop :=
  ∀ (bs stmin : Byte) (s : State), s.ctrl = .awaitFc →
    exec (.fcWait bs stmin) s = .next { s with rxReqAt := s.now, out := s.out ++ [.rxReq] }

/-- FC_OVF at AWAIT_FC (R92): the session fails with Overflow. -/
def Obligations.OverflowAborts : Prop :=
  ∀ (bs stmin : Byte) (s : State), s.ctrl = .awaitFc →
    exec (.fcOvf bs stmin) s = .next (raiseFail .overflow s)

/-- Any SF, FF or CF at AWAIT_FC (R93, D10): the session fails with UnexpectedFrame. -/
def Obligations.DataFramesAtAwaitFcFail : Prop :=
  ∀ (i : Instr) (s : State), s.ctrl = .awaitFc → i.typed ≠ .invalid → (∀ fs bs stmin, i.typed ≠ .fc fs bs stmin) →
    exec i s = .next (raiseFail .unexpectedFrame s)

/-- What a received frame does depends on the frame alone, not on which row of the table names it: rows that stand for the same
typed frame have the same effect in every state. -/
def Obligations.EffectDependsOnTypedFrame : Prop :=
  ∀ (i j : Instr) (s : State), i.typed = j.typed → exec i s = exec j s

/-- A frame's bytes go where its rule's `MemWrite` puts them, and no other byte of PBUF changes (R43). -/
def Obligations.FramesStoreOnlyTheirBytes : Prop :=
  ∀ (i : Instr) (s t : State), exec i s = .next t →
    match frameStores i.typed s with
    | none => ∀ x, memRead t.pbuf x = memRead s.pbuf x
    | some (a, bytes) =>
      ∀ x, memRead t.pbuf x = if a ≤ x ∧ x < a + bytes.length then bytes[x - a]? else memRead s.pbuf x

/-- What no received frame changes (R38): the parameters, CAP, the DATA port and the agents' queues; and the registers that only the
simulator's acceptance, an FF, a CF, an FC(CTS) or the end of a transaction writes. -/
def Obligations.FramesKeepOtherRegisters : Prop :=
  ∀ (i : Instr) (s t : State), exec i s = .next t →
    (t.cfg = s.cfg ∧ t.cap = s.cap ∧ t.rpm = s.rpm ∧ t.speed = s.speed) ∧
    (t.host = s.host ∧ t.link = s.link ∧ t.txAnswers = s.txAnswers ∧ t.timer = s.timer ∧ t.agenda = s.agenda ∧
      t.now = s.now) ∧
    (s.ctrl ≠ .listen → t.service = s.service ∧ t.pid = s.pid ∧ t.dir = s.dir) ∧
    (s.ctrl ≠ .rxWait → t.seq = s.seq) ∧
    (s.ctrl ≠ .awaitFc → s.ctrl ≠ .rxWait →
      t.bs = s.bs ∧ t.stmin = s.stmin ∧ t.credit = s.credit ∧ t.creditInf = s.creditInf) ∧
    (s.ctrl = .awaitFc → t.total = s.total ∧ t.cursor = s.cursor) ∧
    (t.status ≠ .done → t.resultLen = s.resultLen) ∧
    (t.status ≠ .failed → t.failCode = s.failCode)

/-! ## Sender and drivers -/

/-- `SEND(len)` (R87) on a loaded buffer: the session registers, then the SF or the FF of the payload; length 0 is malformed. -/
def Obligations.SendStartsSession : Prop :=
  ∀ (len : Len) (p : List Byte) (s : State),
    let s0 : State :=
      { s with
        dir := .sending, total := len, cursor := 0, sess := .idle, status := .busy,
        written := { s.written with dir := true, total := true, cursor := true } }
    (len = 0 → send len s = .next (raiseFail .malformedPci s0)) ∧
    (1 ≤ len.toNat → len.toNat ≤ 7 → memReadList s.pbuf 0 len.toNat = some p → ∃ d, encodeSF s.cfg.fill p = .frame d ∧
      send len s = .next
        { s0 with
          ctrl := .txSf, txf := ⟨s.cfg.txId, d⟩, written := { s0.written with txf := true },
          out := s.out ++ [.tx s.cfg.txId d] }) ∧
    (7 < len.toNat → memReadList s.pbuf 0 6 = some p → ∃ d, encodeFF len p = .frame d ∧
      send len s = .next
        { s0 with
          ctrl := .txFf, txf := ⟨s.cfg.txId, d⟩, written := { s0.written with txf := true },
          out := s.out ++ [.tx s.cfg.txId d] })

/-- `Continue()` (R95): the three rows in the order they are tested. -/
def Obligations.ContinueChoosesRow : Prop :=
  ∀ s : State,
    (s.cursor = s.total → continueSend s = raiseDone s) ∧
    (s.cursor ≠ s.total → s.creditInf = false → s.credit = 0 → continueSend s =
      { s with sess := .awaitFlow, ctrl := .awaitFc, rxReqAt := s.now, out := s.out ++ [.rxReq] }) ∧
    (s.cursor ≠ s.total → (s.creditInf = true ∨ s.credit ≠ 0) → continueSend s =
      { s with ctrl := .sleep, sleepDue := s.now + stminToUs s.stmin, out := s.out ++ [.sleep (stminToUs s.stmin)] })

/-- The step of a REQUEST at IDLE_CMD (R114): the oldest command the host holds is accepted, its capacity clamped to 4095, and the
SF `[02 service pid FILL×5]` transmitted. -/
def Obligations.CommandAccepted : Prop :=
  ∀ (r : Request) (rest : List Request) (s : State), s.agenda = [] → s.ctrl = .idleCmd → s.host = r :: rest →
    let f := s.cfg.fill
    let d : Frame := ⟨0x02, r.service, r.pid, f, f, f, f, f⟩
    ∃ cap : Len, cap.toNat = min r.cap 4095 ∧
    step s = .next
      { s with
        host := rest, service := r.service, pid := r.pid, cap := cap, dir := .receiving, sess := .idle,
        status := .busy, ctrl := .txReq, txf := ⟨s.cfg.txId, d⟩,
        written :=
          { s.written with service := true, pid := true, cap := true, dir := true, txf := true },
        out := s.out ++ [.tx s.cfg.txId d] }

/-- `TxOk` at TX_REQ (R115) and at TX_FC (R104): the receiver waits for the next frame, STATE unchanged. -/
def Obligations.TxOkStartsReceive : Prop :=
  ∀ (delay : Nat) (rest : List TxAnswer) (s : State), s.agenda = [] → s.txAnswers = ⟨delay, true⟩ :: rest →
    (s.ctrl = .txReq ∨ s.ctrl = .txFc) →
    step s = .next
      { s with
        txAnswers := rest, now := s.now + delay, ctrl := .rxWait, rxReqAt := s.now + delay,
        out := s.out ++ [.rxReq] }

/-- `TxOk` at TX_SF (R88) ends the session; `TxOk` at TX_FF (R89) leaves the sender waiting for a flow control with CURSOR = 6 and
SEQ = 1. -/
def Obligations.TxOkOfFirstResponseFrame : Prop :=
  ∀ (delay : Nat) (rest : List TxAnswer) (s : State), s.agenda = [] → s.txAnswers = ⟨delay, true⟩ :: rest →
    let s0 : State := { s with txAnswers := rest, now := s.now + delay }
    (s.ctrl = .txSf → step s = .next (raiseDone
      { s0 with cursor := s.total, written := { s.written with cursor := true } })) ∧
    (s.ctrl = .txFf → step s = .next
      { s0 with
        cursor := 6, seq := 1, sess := .awaitFlow, ctrl := .awaitFc, rxReqAt := s.now + delay,
        written := { s.written with cursor := true, seq := true }, out := s.out ++ [.rxReq] })

/-- `SleepDone` at SLEEP (R96): the CF of the next `min(7, TOTAL - CURSOR)` bytes is transmitted; no register but CTRL and TXF
changes. -/
def Obligations.SleepDoneTransmitsChunk : Prop :=
  ∀ (us : Nat) (rest : List Nat) (p : List Byte) (s : State), s.agenda = [] → s.ctrl = .sleep → s.timer = us :: rest →
    s.sleepDue ≤ s.now + us → s.cursor.toNat < s.total.toNat →
    memReadList s.pbuf s.cursor.toNat (min 7 (s.total.toNat - s.cursor.toNat)) = some p →
    ∃ d, encodeCF s.cfg.fill s.seq p = .frame d ∧
      step s = .next
        { s with
          timer := rest, now := s.now + us, ctrl := .txCf, txf := ⟨s.cfg.txId, d⟩,
          written := { s.written with txf := true }, out := s.out ++ [.tx s.cfg.txId d] }

/-- `TxOk` at TX_CF (R97), where R37 holds: CURSOR, SEQ and a finite CREDIT advance, then `Continue()`. -/
def Obligations.TxOkOfChunkAdvances : Prop :=
  ∀ (delay : Nat) (rest : List TxAnswer) (s : State), s.agenda = [] → s.ctrl = .txCf →
    s.txAnswers = ⟨delay, true⟩ :: rest → s.cursor.toNat ≤ s.total.toNat → (s.creditInf = true ∨ s.credit ≠ 0) →
    step s = .next (continueSend
      { s with
        txAnswers := rest, now := s.now + delay,
        cursor := s.cursor + BitVec.ofNat 12 (min 7 (s.total.toNat - s.cursor.toNat)), seq := s.seq + 1,
        credit := if s.creditInf = true then s.credit else s.credit - 1,
        written := { s.written with cursor := true, seq := true, credit := s.written.credit || !s.creditInf } })

/-- A link failure (R124, R120): `TxErr` at a transmit point and `RxErr` at RX_WAIT or AWAIT_FC fail the session with LinkError;
`RxErr` at LISTEN is recorded and the block goes on listening. -/
def Obligations.LinkFailures : Prop :=
  ∀ (delay : Nat) (s : State), s.agenda = [] →
    (∀ rest, s.ctrl.transmits = true → s.txAnswers = ⟨delay, false⟩ :: rest →
      step s = .next (raiseFail .linkError { s with txAnswers := rest, now := s.now + delay })) ∧
    (∀ rest, s.link = ⟨delay, .err⟩ :: rest →
      (s.ctrl = .rxWait ∨ s.ctrl = .awaitFc →
        step s = .next (raiseFail .linkError { s with link := rest, now := s.now + delay })) ∧
      (s.ctrl = .listen →
        step s = .next
          { s with
            link := rest, now := s.now + delay, status := .failed, failCode := 7, rxReqAt := s.now + delay,
            out := s.out ++ [.log .linkError, .rxReq] }))

/-- The optional timeout (R125): with HAS_TIMEOUT, at RX_WAIT or AWAIT_FC, and N_TIMEOUT_US after the last `RxReq` that the
identifier filter did not emit, the session fails with Timeout; otherwise no `Timeout` is ever delivered, and the refusal of one is the
model's choice (log entry 10). -/
def Obligations.TimeoutFailsSession : Prop :=
  ∀ (delay : Nat) (rest : List LinkAnswer) (s : State), s.agenda = [] → s.link = ⟨delay, .timeout⟩ :: rest →
    (s.ctrl = .rxWait ∨ s.ctrl = .awaitFc → s.cfg.hasTimeout = true → s.rxReqAt + s.cfg.nTimeoutUs ≤ s.now + delay →
      step s = .next (raiseFail .timeout { s with link := rest, now := s.now + delay })) ∧
    (s.ctrl.view ≠ none → (s.cfg.hasTimeout = false ∨ s.ctrl = .listen ∨ s.now + delay < s.rxReqAt + s.cfg.nTimeoutUs) →
      step s = .refused .timeoutNotAllowed)

/-- The identifier filter (R113): a frame with another identifier is dropped at every receive point; `RxReq` is emitted again, no
register changes, nothing is logged, and the wait that R125 measures goes on. -/
def Obligations.ForeignFramesDropped : Prop :=
  ∀ (delay : Nat) (id : CanId) (d : Frame) (rest : List LinkAnswer) (s : State), s.agenda = [] →
    s.link = ⟨delay, .frame id d⟩ :: rest → id ≠ s.cfg.rxId →
    (s.ctrl = .listen ∨ s.ctrl = .rxWait ∨ s.ctrl = .awaitFc) →
    step s = .next { s with link := rest, now := s.now + delay, out := s.out ++ [.rxReq] }

/-- A step runs the decoded instruction: a frame with the block's identifier, received at a receive point, is decoded in that point's
view and executed. -/
def Obligations.StepRunsDecodedFrame : Prop :=
  ∀ (delay : Nat) (d : Frame) (rest : List LinkAnswer) (v : View) (s : State), s.agenda = [] →
    s.link = ⟨delay, .frame s.cfg.rxId d⟩ :: rest → s.ctrl.view = some v →
    step s = exec (decode v d) { s with link := rest, now := s.now + delay }

/-- A wait changes nothing (R137, R147), and HALT is stuck until a reset (R141); that a step answers the same state then is the model's
form of it (log entry 11). -/
def Obligations.WaitsKeepEverything : Prop :=
  ∀ s : State, s.agenda = [] →
    (s.ctrl = .idleCmd → s.host = [] → step s = .next s) ∧
    (s.ctrl.transmits = true → s.txAnswers = [] → step s = .next s) ∧
    (s.ctrl.view ≠ none → s.link = [] → step s = .next s) ∧
    (s.ctrl = .sleep → s.timer = [] → step s = .next s) ∧
    (s.ctrl = .halt → step s = .next s)

/-! ## Reset -/

/-- A reset, whenever it comes (R138, R139, R40): the registers R40 gives values for, no register marked written, PBUF unwritten, the
parameters kept, no `Complete`; and the exit that `link_ok` and the role choose. That the agents' lists stay is log entry 15. -/
def Obligations.ResetLeaves : Prop :=
  ∀ (linkOk : Bool) (rest : List Turn) (s : State), s.agenda = .reset linkOk :: rest →
    ∃ t, step s = .next t ∧ t.sess = .idle ∧ t.status = .none ∧ t.failCode = 0 ∧ t.written = Written.nothing ∧
      t.pbuf = [] ∧ t.cfg = s.cfg ∧ t.host = s.host ∧ t.link = s.link ∧ t.agenda = rest ∧
      (linkOk = false → t.ctrl = .halt ∧ t.out = s.out) ∧
      (linkOk = true → s.cfg.role = .tester → t.ctrl = .idleCmd ∧ t.out = s.out) ∧
      (linkOk = true → s.cfg.role = .simulator → t.ctrl = .listen ∧ t.out = s.out ++ [.rxReq])

/-- Right after reset, for every parameter set and both boot inputs, the values of R40 stand and the invariant holds. -/
def Obligations.ResetMeetsInvariant : Prop :=
  ∀ (cfg : Config) (linkOk : Bool), (State.resetFor cfg linkOk).Inv ∧ (State.resetFor cfg linkOk).cfg = cfg

/-! ## Whole-machine rules -/

/-- Every step keeps the invariant of R37 and R40, whoever moves and whatever arrives. -/
def Obligations.StepKeepsInvariant : Prop :=
  ∀ s t : State, s.Inv → step s = .next t → t.Inv

/-- From every state that meets the invariant, a step on a legal environment answers a next state: no fault and no refusal can
arise (R130). -/
def Obligations.StepIsTotal : Prop :=
  ∀ s : State, s.Inv → s.envLegal = true → ∃ t, step s = .next t

/-- At every receive point every instruction, of every row, completes from a state that meets the invariant; and where the spec gives
no behaviour, outside the invariant, the stop has its name: no `RxReq` outstanding, a STATE that R116 has no row for, and the CF whose
subtractions R12 excludes (log entries 6 and 21). -/
def Obligations.RowsCompleteOrStopByName : Prop :=
  ∀ (i : Instr) (s : State),
    (s.Inv → s.ctrl.view ≠ none → ∃ t, exec i s = .next t) ∧
    (s.ctrl.view = none → exec i s = .refused .noReceiveOutstanding) ∧
    (s.ctrl = .rxWait → i.typed ≠ .invalid → s.sess = .awaitFlow ∨ s.sess = .sendCons → exec i s = .fault .stateDisagrees) ∧
    (∀ p, i.typed = .cf s.seq p → s.ctrl = .rxWait → s.sess = .awaitCons →
      (s.total.toNat < s.cursor.toNat → exec i s = .fault .cursorBeyondTotal) ∧
      (s.cursor.toNat ≤ s.total.toNat → s.total.toNat ≤ s.cap.toNat → s.creditInf = false → s.credit = 0 →
        exec i s = .fault .creditUnderflow))

/-- No step changes the parameters (R8, R39, R138). No step of the block changes RPM or SPEED (R32: the block never writes them), and
the data source's turn alone does. That a reset turn keeps their values is the model's choice (log entries 9 and 15, DESIGN CHOICE):
R40 and R140 call them unspecified draws then. -/
def Obligations.ParametersNeverChange : Prop :=
  ∀ s t : State, step s = .next t →
    t.cfg = s.cfg ∧ ((∀ rpm speed rest, s.agenda ≠ .dataWrite rpm speed :: rest) → t.rpm = s.rpm ∧ t.speed = s.speed)

/-- A sender session never writes PBUF (R98 item 5), and the receiver never writes it at or above TOTAL or CAP (R106 item 4). -/
def Obligations.PbufWritesStayInBounds : Prop :=
  ∀ s t : State, s.Inv → step s = .next t → (∀ linkOk rest, s.agenda ≠ .reset linkOk :: rest) →
    (s.inSend = true → t.pbuf = s.pbuf) ∧
    (s.ctrl = .rxWait → ∀ x, t.total.toNat ≤ x ∨ s.cap.toNat ≤ x → memRead t.pbuf x = memRead s.pbuf x) ∧
    (s.ctrl ≠ .listen → s.ctrl ≠ .rxWait → t.pbuf = s.pbuf)

/-- Failures are precise (R128, R122): a step that logs a failure writes no byte of PBUF and no session register; on the simulator an
unsupported request has written SERVICE and PID. -/
def Obligations.FailuresArePrecise : Prop :=
  ∀ (s t : State) (k : ErrorKind), step s = .next t → Output.log k ∈ emitted s t →
    t.status = .failed ∧ t.failCode = k.code ∧ t.sess = (if s.ctrl = .listen then s.sess else .idle) ∧ t.pbuf = s.pbuf ∧
    t.dir = s.dir ∧ t.total = s.total ∧ t.cursor = s.cursor ∧ t.seq = s.seq ∧ t.credit = s.credit ∧
    t.creditInf = s.creditInf ∧ t.bs = s.bs ∧ t.stmin = s.stmin ∧ t.cap = s.cap ∧ t.resultLen = s.resultLen ∧
    t.txf = s.txf ∧ (s.ctrl ≠ .listen → t.service = s.service ∧ t.pid = s.pid)

/-- A tester emits exactly one `Complete` when a transaction ends, with the outcome that STATUS, RESULT_LEN and FAIL_CODE latch, and
none otherwise (R34). -/
def Obligations.OneCompletePerTransaction : Prop :=
  ∀ s t : State, s.Inv → s.cfg.role = .tester → step s = .next t → (∀ linkOk rest, s.agenda ≠ .reset linkOk :: rest) →
    (s.ctrl.inTransaction = true ∧ t.ctrl = .idleCmd →
      (t.status = .done ∧ completions (emitted s t) = [.ok t.resultLen]) ∨
      (t.status = .failed ∧ ∃ k : ErrorKind, k.code = t.failCode ∧ completions (emitted s t) = [.err k])) ∧
    (¬ (s.ctrl.inTransaction = true ∧ t.ctrl = .idleCmd) → completions (emitted s t) = [])

/-- Each port's events are consumed one at a time, in order, and only at the control point with that port's handshake: commands at
IDLE_CMD (R55, D32), frames at receive points (R54, D41), `Tx` answers at transmit points, the timer at SLEEP. -/
def Obligations.PortsConsumedInOrder : Prop :=
  ∀ s t : State, step s = .next t →
    (t.host = s.host ∨ (s.ctrl = .idleCmd ∧ ∃ r, s.host = r :: t.host)) ∧
    (t.link = s.link ∨ (s.ctrl.view ≠ none ∧ ∃ a, s.link = a :: t.link)) ∧
    (t.txAnswers = s.txAnswers ∨ (s.ctrl.transmits = true ∧ ∃ a, s.txAnswers = a :: t.txAnswers)) ∧
    (t.timer = s.timer ∨ (s.ctrl = .sleep ∧ ∃ us, s.timer = us :: t.timer))

/-- Every CF waits for a `Sleep` of the STmin delay in force (R143): SLEEP is entered with that delay still to pass, TX_CF is entered
from SLEEP alone, and only once the delay has passed; a `SleepDone` before that is refused by name, which is the model's choice (log
entry 10): the environment has no such move (R33). -/
def Obligations.ChunksSpacedByStmin : Prop :=
  ∀ s : State,
    (∀ t, step s = .next t →
      (s.ctrl ≠ .sleep → t.ctrl = .sleep → t.sleepDue = t.now + stminToUs t.stmin) ∧
      (s.ctrl ≠ .txCf → t.ctrl = .txCf → s.ctrl = .sleep ∧ s.sleepDue ≤ t.now)) ∧
    (∀ us rest, s.agenda = [] → s.ctrl = .sleep → s.timer = us :: rest → s.now + us < s.sleepDue →
      step s = .refused .sleepTooShort)

/-- A step emits at most one `Tx`, and only as it enters the transmit point that TXF holds its frame for (R30, R54). -/
def Obligations.OneTransmitOutstanding : Prop :=
  ∀ s t : State, step s = .next t →
    transmitted (emitted s t) = [] ∨
      (t.ctrl.transmits = true ∧ t.txf.id = s.cfg.txId ∧ transmitted (emitted s t) = [t.txf.d])

/-! ## Messages -/

/-- Payloads of 1..7 bytes (§8 Property 1, R81, R100): the Single Frame a sender makes of P, whatever its fill byte, delivers exactly
P to the host of a tester with room for it. -/
def Obligations.SingleFrameDeliversPayload : Prop :=
  ∀ (fill : Byte) (p : List Byte) (s : State), 1 ≤ p.length → p.length ≤ 7 → s.ctrl = .rxWait → s.sess = .idle →
    s.cfg.role = .tester → p.length ≤ s.cap.toNat →
    ∃ d t, encodeSF fill p = .frame d ∧ exec (decode .response d) s = .next t ∧ t.status = .done ∧
      t.hostPayload = some p ∧ completions (emitted s t) = [.ok (BitVec.ofNat 12 p.length)]

/-- Payloads of 8..4095 bytes, receiving side (§8 Property 2, R106 item 2): a tester at RX_WAIT that is given the frames of a
message, whatever the fill byte, its own block size and the delays, and whose FCs are transmitted, delivers exactly that message. -/
def Obligations.ReceiverReassemblesMessage : Prop :=
  ∀ (fill : Byte) (msg : List Byte) (answers rest : List LinkAnswer) (oks restTx : List TxAnswer) (s : State),
    s.agenda = [] → s.cfg.role = .tester → s.ctrl = .rxWait → s.sess = .idle →
    8 ≤ msg.length → msg.length ≤ s.cap.toNat →
    s.link = answers ++ rest →
    answers.map (·.event) = (messageFrames fill msg).map (.frame s.cfg.rxId) →
    s.txAnswers = oks ++ restTx → (∀ a ∈ oks, a.ok = true) → (messageFrames fill msg).length ≤ oks.length →
    ∃ n t, Sys2Proof.core.run n s = .next t ∧ t.ctrl = .idleCmd ∧ t.status = .done ∧ t.link = rest ∧
      t.resultLen.toNat = msg.length ∧ t.hostPayload = some msg

/-- Payloads of 8..4095 bytes, sending side (§8 Properties 2 and 3, R98 items 1 and 2): a sender whose transmits succeed, whose timer
answers in time and which is given a CTS flow control whenever it awaits one, of any block size and STmin, transmits exactly the FF
and the CFs of the message, numbered 1, 2, …, 15, 0, 1, …, and ends Done. -/
def Obligations.SenderSegmentsMessage : Prop :=
  ∀ (msg : List Byte) (grants : List LinkAnswer) (oks : List TxAnswer) (sleeps : List Nat) (s s0 : State),
    s.agenda = [] → s.cfg.role = .simulator → s.link = grants → s.txAnswers = oks → s.timer = sleeps →
    8 ≤ msg.length → msg.length ≤ 4095 → memReadList s.pbuf 0 msg.length = some msg →
    send (BitVec.ofNat 12 msg.length) s = .next s0 →
    (∀ a ∈ grants, ∃ bs stmin, a.event = .frame s.cfg.rxId (encodeFC s.cfg.fill .cts bs stmin)) →
    (∀ a ∈ oks, a.ok = true) → (∀ us ∈ sleeps, 127000 ≤ us) →
    (messageFrames s.cfg.fill msg).length ≤ grants.length → (messageFrames s.cfg.fill msg).length ≤ oks.length →
    (messageFrames s.cfg.fill msg).length ≤ sleeps.length →
    ∃ n t, Sys2Proof.core.run n s0 = .next t ∧ t.ctrl = .listen ∧ t.status = .done ∧ t.cursor = t.total ∧
      transmitted t.out = transmitted s.out ++ messageFrames s.cfg.fill msg

/-- Block size (§8 Property 4, R98 item 3): a sender granted k > 0 CFs with more than 7·k bytes left transmits exactly k CFs and then
awaits the next flow control. -/
def Obligations.BlockSizeGrantsExactly : Prop :=
  ∀ (k : Nat) (s : State), s.Inv → s.agenda = [] → s.ctrl = .sleep → s.creditInf = false → s.credit.toNat = k →
    s.cursor.toNat + 7 * k < s.total.toNat →
    k ≤ s.txAnswers.length → (∀ a ∈ s.txAnswers, a.ok = true) →
    k ≤ s.timer.length → (∀ us ∈ s.timer, 127000 ≤ us) → s.sleepDue ≤ s.now + 127000 →
    ∃ t, Sys2Proof.core.run (2 * k) s = .next t ∧ t.ctrl = .awaitFc ∧ t.cursor.toNat = s.cursor.toNat + 7 * k ∧
      (transmitted t.out).length = (transmitted s.out).length + k ∧ t.link = s.link
end

