-- ==== Sys2Proof/Laws/Codec.lean ====
section
/-! SUPPORT. The laws of the codec's bit fields: taking apart what was put together, and the other way round. -/

namespace Sys2Proof

@[simp] theorem hiNibble_joinNibbles (hi lo : Nibble) : hiNibble (joinNibbles hi lo) = hi := by
  revert hi lo; decide

@[simp] theorem loNibble_joinNibbles (hi lo : Nibble) : loNibble (joinNibbles hi lo) = lo := by
  revert hi lo; decide

@[simp] theorem joinNibbles_hi_lo (b : Byte) : joinNibbles (hiNibble b) (loNibble b) = b := by
  revert b; decide

@[simp] theorem highByte_joinBytes (hi lo : Byte) : highByte (joinBytes hi lo) = hi := by
  simp only [highByte, joinBytes]
  exact BitVec.extractLsb'_append_eq_left

@[simp] theorem lowByte_joinBytes (hi lo : Byte) : lowByte (joinBytes hi lo) = lo := by
  simp only [lowByte, joinBytes]
  exact BitVec.extractLsb'_append_eq_right

@[simp] theorem joinBytes_high_low (v : BitVec 16) : joinBytes (highByte v) (lowByte v) = v := by
  apply BitVec.eq_of_toNat_eq
  simp only [joinBytes, highByte, lowByte, BitVec.toNat_append, BitVec.extractLsb'_toNat]
  have := v.isLt
  rw [← Nat.shiftLeft_add_eq_or_of_lt (by omega)]
  simp [Nat.shiftRight_eq_div_pow, Nat.shiftLeft_eq]
  omega

/-- The total of an FF as a number: the shift form of R77. -/
theorem ffTotal_toNat (d : Frame) : (ffTotal d).toNat = (loNibble d.d0).toNat * 256 + d.d1.toNat := by
  have h1 := (loNibble d.d0).isLt
  have h2 := d.d1.isLt
  simp only [ffTotal, BitVec.toNat_or, BitVec.toNat_shiftLeft, BitVec.toNat_setWidth]
  rw [Nat.mod_eq_of_lt (a := (loNibble d.d0).toNat) (by omega), Nat.mod_eq_of_lt (a := d.d1.toNat) (by omega),
    Nat.shiftLeft_eq, Nat.mod_eq_of_lt (by omega)]
  have : (loNibble d.d0).toNat * 2 ^ 8 = (loNibble d.d0).toNat <<< 8 := by simp [Nat.shiftLeft_eq]
  rw [this, ← Nat.shiftLeft_add_eq_or_of_lt (by omega), Nat.shiftLeft_eq]

/-- The total put into an FF's two PCI bytes is read back. -/
theorem ffTotal_of_fields (total : Len) (d : Frame) (h0 : loNibble d.d0 = total.extractLsb' 8 4)
    (h1 : d.d1 = total.extractLsb' 0 8) : ffTotal d = total := by
  apply BitVec.eq_of_toNat_eq
  rw [ffTotal_toNat, h0, h1]
  have := total.isLt
  simp [BitVec.extractLsb'_toNat, Nat.shiftRight_eq_div_pow]
  omega

/-- A payload of at most seven bytes is read back from a padded frame. -/
theorem from1_padded_take (fill pci : Byte) (p : List Byte) (h : p.length ≤ 7) :
    (padded fill pci p).from1.toList.take p.length = p := by
  match p, h with
  | [], _ | [_], _ | [_, _], _ | [_, _, _], _ | [_, _, _, _], _ | [_, _, _, _, _], _ | [_, _, _, _, _, _], _
  | [_, _, _, _, _, _, _], _ => rfl
  | _ :: _ :: _ :: _ :: _ :: _ :: _ :: _ :: _, h => simp only [List.length_cons] at h; omega

@[simp] theorem from1_padded_bytes7 (fill pci : Byte) (p : Bytes7) : (padded fill pci p.toList).from1 = p := rfl

theorem padded_d0 (fill pci : Byte) (p : List Byte) : (padded fill pci p).d0 = pci := rfl

end Sys2Proof
end

