-- ==== Sys2Proof/Laws/Memory.lean ====
section
/-! SUPPORT. The laws of PBUF: what a read gives after a write, and that a write keeps the canonical form. -/

namespace Sys2Proof.Machine

theorem memRead_memWrite (m : List Host.Cell) (a x : Nat) (b : Byte) :
    memRead (memWrite m a b) x = if x = a then some b else memRead m x := by
  induction m with
  | nil =>
    by_cases hx : x = a
    · simp [memWrite, memRead, hx]
    · simp [memWrite, memRead, hx, Ne.symm hx]
  | cons c cs ih =>
    by_cases hx : x = a
    · subst hx
      simp only [memWrite]
      split
      · simp [memRead]
      · split
        · simp [memRead]
        · next hne => simp [memRead, ih, Ne.symm hne]
    · simp only [memWrite, if_neg hx] at ih ⊢
      split
      · simp [memRead, Ne.symm hx]
      · split
        · next heq => simp [memRead, Ne.symm hx, ← heq]
        · simp [memRead, ih]

/-- Every cell of a memory in canonical form above the first one lies above it. -/
theorem memWf_cons (c : Host.Cell) (cs : List Host.Cell) :
    memWf (c :: cs) = true ↔ c.1 < bufCap ∧ memWf cs = true ∧ ∀ c' ∈ cs.head?, c.1 < c'.1 := by
  cases cs with
  | nil => simp [memWf]
  | cons c' cs =>
    have bound : memWf (c' :: cs) = true → c'.1 < bufCap := by
      clear c
      induction cs generalizing c' with
      | nil => simp [memWf]
      | cons c'' cs ih =>
        intro h
        simp only [memWf, Bool.and_eq_true, decide_eq_true_eq] at h
        exact Nat.lt_trans h.1 (ih _ h.2)
    simp only [memWf, Bool.and_eq_true, decide_eq_true_eq, List.head?_cons, Option.mem_def, Option.some.injEq,
      forall_eq']
    constructor
    · rintro ⟨h1, h2⟩
      exact ⟨Nat.lt_trans h1 (bound h2), h2, h1⟩
    · rintro ⟨-, h2, h1⟩
      exact ⟨h1, h2⟩

theorem memWrite_head? (m : List Host.Cell) (a : Nat) (b : Byte) :
    ∀ c' ∈ (memWrite m a b).head?, c'.1 = a ∨ ∃ c ∈ m.head?, c'.1 = c.1 := by
  cases m with
  | nil => simp [memWrite]
  | cons c cs =>
    simp only [memWrite]
    split
    · simp
    · split <;> simp

/-- A write inside the buffer keeps the canonical form. -/
theorem memWrite_wf (m : List Host.Cell) (a : Nat) (b : Byte) (ha : a < bufCap) (h : memWf m = true) :
    memWf (memWrite m a b) = true := by
  induction m with
  | nil => simpa [memWrite, memWf] using ha
  | cons c cs ih =>
    obtain ⟨hc, hcs, hhead⟩ := (memWf_cons c cs).1 h
    simp only [memWrite]
    split
    · next hlt => exact (memWf_cons _ _).2 ⟨ha, h, by simpa using hlt⟩
    · split
      · next heq => exact (memWf_cons _ _).2 ⟨ha, hcs, by simpa [heq] using hhead⟩
      · next hge hne =>
        refine (memWf_cons _ _).2 ⟨hc, ih hcs, fun c' hc' => ?_⟩
        rcases memWrite_head? cs a b c' hc' with h' | ⟨d, hd, h'⟩
        · omega
        · exact h' ▸ hhead d hd

theorem memWriteList_wf (m : List Host.Cell) (a : Nat) (bs : List Byte) (ha : a + bs.length ≤ bufCap)
    (h : memWf m = true) : memWf (memWriteList m a bs) = true := by
  induction bs generalizing m a with
  | nil => exact h
  | cons b bs ih =>
    simp only [List.length_cons] at ha
    exact ih _ _ (by omega) (memWrite_wf m a b (by omega) h)

/-- A list write leaves every offset below it alone. -/
theorem memRead_memWriteList_below (m : List Host.Cell) (a x : Nat) (bs : List Byte) (hx : x < a) :
    memRead (memWriteList m a bs) x = memRead m x := by
  induction bs generalizing m a with
  | nil => rfl
  | cons b bs ih =>
    rw [memWriteList, ih _ _ (by omega), memRead_memWrite, if_neg (by omega)]

/-- Every offset read by `memReadList` holds a byte, and the other way round. -/
theorem memReadList_isSome (m : List Host.Cell) (a n : Nat) :
    (memReadList m a n).isSome = true ↔ ∀ i < n, (memRead m (a + i)).isSome = true := by
  induction n generalizing a with
  | zero => simp [memReadList]
  | succ n ih =>
    have split0 : (∀ i < n + 1, (memRead m (a + i)).isSome = true) ↔
        (memRead m a).isSome = true ∧ ∀ i < n, (memRead m (a + 1 + i)).isSome = true := by
      constructor
      · intro h
        exact ⟨h 0 (by omega), fun i hi => by have := h (i + 1) (by omega); rwa [show a + (i + 1) = a + 1 + i by omega] at this⟩
      · rintro ⟨h0, h1⟩ i hi
        cases i with
        | zero => exact h0
        | succ i => rw [show a + (i + 1) = a + 1 + i by omega]; exact h1 i (by omega)
    rw [split0, ← ih, memReadList]
    cases memRead m a <;> cases memReadList m (a + 1) n <;> simp

theorem memReadList_length {m : List Host.Cell} {a n : Nat} {bs : List Byte} (h : memReadList m a n = some bs) :
    bs.length = n := by
  induction n generalizing a bs with
  | zero => simp_all [memReadList]
  | succ n ih =>
    simp only [memReadList] at h
    split at h
    · next hb hbs =>
      simp only [Option.some.injEq] at h
      rw [← h, List.length_cons, ih hbs]
    · simp at h

end Sys2Proof.Machine
end

