-- ==== Sys2Proof/Laws/State.lean ====
section
/-! SUPPORT. What each shared update does to each field of State, so that no proof unfolds a record update. -/

namespace Sys2Proof.Machine

/-! ## `MemWrite` -/

@[simp] theorem State.writePbuf_cfg (a : Nat) (bytes : List Byte) (s : State) : (s.writePbuf a bytes).cfg = s.cfg := rfl
@[simp] theorem State.writePbuf_ctrl (a : Nat) (bytes : List Byte) (s : State) : (s.writePbuf a bytes).ctrl = s.ctrl := rfl
@[simp] theorem State.writePbuf_sess (a : Nat) (bytes : List Byte) (s : State) : (s.writePbuf a bytes).sess = s.sess := rfl
@[simp] theorem State.writePbuf_dir (a : Nat) (bytes : List Byte) (s : State) : (s.writePbuf a bytes).dir = s.dir := rfl
@[simp] theorem State.writePbuf_total (a : Nat) (bytes : List Byte) (s : State) : (s.writePbuf a bytes).total = s.total := rfl
@[simp] theorem State.writePbuf_cursor (a : Nat) (bytes : List Byte) (s : State) : (s.writePbuf a bytes).cursor = s.cursor := rfl
@[simp] theorem State.writePbuf_seq (a : Nat) (bytes : List Byte) (s : State) : (s.writePbuf a bytes).seq = s.seq := rfl
@[simp] theorem State.writePbuf_credit (a : Nat) (bytes : List Byte) (s : State) : (s.writePbuf a bytes).credit = s.credit := rfl
@[simp] theorem State.writePbuf_creditInf (a : Nat) (bytes : List Byte) (s : State) : (s.writePbuf a bytes).creditInf = s.creditInf := rfl
@[simp] theorem State.writePbuf_bs (a : Nat) (bytes : List Byte) (s : State) : (s.writePbuf a bytes).bs = s.bs := rfl
@[simp] theorem State.writePbuf_stmin (a : Nat) (bytes : List Byte) (s : State) : (s.writePbuf a bytes).stmin = s.stmin := rfl
@[simp] theorem State.writePbuf_cap (a : Nat) (bytes : List Byte) (s : State) : (s.writePbuf a bytes).cap = s.cap := rfl
@[simp] theorem State.writePbuf_resultLen (a : Nat) (bytes : List Byte) (s : State) : (s.writePbuf a bytes).resultLen = s.resultLen := rfl
@[simp] theorem State.writePbuf_service (a : Nat) (bytes : List Byte) (s : State) : (s.writePbuf a bytes).service = s.service := rfl
@[simp] theorem State.writePbuf_pid (a : Nat) (bytes : List Byte) (s : State) : (s.writePbuf a bytes).pid = s.pid := rfl
@[simp] theorem State.writePbuf_status (a : Nat) (bytes : List Byte) (s : State) : (s.writePbuf a bytes).status = s.status := rfl
@[simp] theorem State.writePbuf_failCode (a : Nat) (bytes : List Byte) (s : State) : (s.writePbuf a bytes).failCode = s.failCode := rfl
@[simp] theorem State.writePbuf_txf (a : Nat) (bytes : List Byte) (s : State) : (s.writePbuf a bytes).txf = s.txf := rfl
@[simp] theorem State.writePbuf_written (a : Nat) (bytes : List Byte) (s : State) : (s.writePbuf a bytes).written = s.written := rfl
@[simp] theorem State.writePbuf_pbuf (a : Nat) (bytes : List Byte) (s : State) : (s.writePbuf a bytes).pbuf = memWriteList s.pbuf a bytes := rfl
@[simp] theorem State.writePbuf_rpm (a : Nat) (bytes : List Byte) (s : State) : (s.writePbuf a bytes).rpm = s.rpm := rfl
@[simp] theorem State.writePbuf_speed (a : Nat) (bytes : List Byte) (s : State) : (s.writePbuf a bytes).speed = s.speed := rfl
@[simp] theorem State.writePbuf_host (a : Nat) (bytes : List Byte) (s : State) : (s.writePbuf a bytes).host = s.host := rfl
@[simp] theorem State.writePbuf_link (a : Nat) (bytes : List Byte) (s : State) : (s.writePbuf a bytes).link = s.link := rfl
@[simp] theorem State.writePbuf_txAnswers (a : Nat) (bytes : List Byte) (s : State) : (s.writePbuf a bytes).txAnswers = s.txAnswers := rfl
@[simp] theorem State.writePbuf_timer (a : Nat) (bytes : List Byte) (s : State) : (s.writePbuf a bytes).timer = s.timer := rfl
@[simp] theorem State.writePbuf_agenda (a : Nat) (bytes : List Byte) (s : State) : (s.writePbuf a bytes).agenda = s.agenda := rfl
@[simp] theorem State.writePbuf_now (a : Nat) (bytes : List Byte) (s : State) : (s.writePbuf a bytes).now = s.now := rfl
@[simp] theorem State.writePbuf_rxReqAt (a : Nat) (bytes : List Byte) (s : State) : (s.writePbuf a bytes).rxReqAt = s.rxReqAt := rfl
@[simp] theorem State.writePbuf_sleepDue (a : Nat) (bytes : List Byte) (s : State) : (s.writePbuf a bytes).sleepDue = s.sleepDue := rfl
@[simp] theorem State.writePbuf_out (a : Nat) (bytes : List Byte) (s : State) : (s.writePbuf a bytes).out = s.out := rfl

/-! ## `emit RxReq` -/

@[simp] theorem emitRxReq_cfg (s : State) : (emitRxReq s).cfg = s.cfg := rfl
@[simp] theorem emitRxReq_ctrl (s : State) : (emitRxReq s).ctrl = s.ctrl := rfl
@[simp] theorem emitRxReq_sess (s : State) : (emitRxReq s).sess = s.sess := rfl
@[simp] theorem emitRxReq_dir (s : State) : (emitRxReq s).dir = s.dir := rfl
@[simp] theorem emitRxReq_total (s : State) : (emitRxReq s).total = s.total := rfl
@[simp] theorem emitRxReq_cursor (s : State) : (emitRxReq s).cursor = s.cursor := rfl
@[simp] theorem emitRxReq_seq (s : State) : (emitRxReq s).seq = s.seq := rfl
@[simp] theorem emitRxReq_credit (s : State) : (emitRxReq s).credit = s.credit := rfl
@[simp] theorem emitRxReq_creditInf (s : State) : (emitRxReq s).creditInf = s.creditInf := rfl
@[simp] theorem emitRxReq_bs (s : State) : (emitRxReq s).bs = s.bs := rfl
@[simp] theorem emitRxReq_stmin (s : State) : (emitRxReq s).stmin = s.stmin := rfl
@[simp] theorem emitRxReq_cap (s : State) : (emitRxReq s).cap = s.cap := rfl
@[simp] theorem emitRxReq_resultLen (s : State) : (emitRxReq s).resultLen = s.resultLen := rfl
@[simp] theorem emitRxReq_service (s : State) : (emitRxReq s).service = s.service := rfl
@[simp] theorem emitRxReq_pid (s : State) : (emitRxReq s).pid = s.pid := rfl
@[simp] theorem emitRxReq_status (s : State) : (emitRxReq s).status = s.status := rfl
@[simp] theorem emitRxReq_failCode (s : State) : (emitRxReq s).failCode = s.failCode := rfl
@[simp] theorem emitRxReq_txf (s : State) : (emitRxReq s).txf = s.txf := rfl
@[simp] theorem emitRxReq_written (s : State) : (emitRxReq s).written = s.written := rfl
@[simp] theorem emitRxReq_pbuf (s : State) : (emitRxReq s).pbuf = s.pbuf := rfl
@[simp] theorem emitRxReq_rpm (s : State) : (emitRxReq s).rpm = s.rpm := rfl
@[simp] theorem emitRxReq_speed (s : State) : (emitRxReq s).speed = s.speed := rfl
@[simp] theorem emitRxReq_host (s : State) : (emitRxReq s).host = s.host := rfl
@[simp] theorem emitRxReq_link (s : State) : (emitRxReq s).link = s.link := rfl
@[simp] theorem emitRxReq_txAnswers (s : State) : (emitRxReq s).txAnswers = s.txAnswers := rfl
@[simp] theorem emitRxReq_timer (s : State) : (emitRxReq s).timer = s.timer := rfl
@[simp] theorem emitRxReq_agenda (s : State) : (emitRxReq s).agenda = s.agenda := rfl
@[simp] theorem emitRxReq_now (s : State) : (emitRxReq s).now = s.now := rfl
@[simp] theorem emitRxReq_rxReqAt (s : State) : (emitRxReq s).rxReqAt = s.now := rfl
@[simp] theorem emitRxReq_sleepDue (s : State) : (emitRxReq s).sleepDue = s.sleepDue := rfl
@[simp] theorem emitRxReq_out (s : State) : (emitRxReq s).out = s.out ++ [.rxReq] := rfl

/-! ## `emit RxReq` at a new control point -/

@[simp] theorem awaitRx_cfg (at' : Ctrl) (st : SessionState) (s : State) : (awaitRx at' st s).cfg = s.cfg := rfl
@[simp] theorem awaitRx_ctrl (at' : Ctrl) (st : SessionState) (s : State) : (awaitRx at' st s).ctrl = at' := rfl
@[simp] theorem awaitRx_sess (at' : Ctrl) (st : SessionState) (s : State) : (awaitRx at' st s).sess = st := rfl
@[simp] theorem awaitRx_dir (at' : Ctrl) (st : SessionState) (s : State) : (awaitRx at' st s).dir = s.dir := rfl
@[simp] theorem awaitRx_total (at' : Ctrl) (st : SessionState) (s : State) : (awaitRx at' st s).total = s.total := rfl
@[simp] theorem awaitRx_cursor (at' : Ctrl) (st : SessionState) (s : State) : (awaitRx at' st s).cursor = s.cursor := rfl
@[simp] theorem awaitRx_seq (at' : Ctrl) (st : SessionState) (s : State) : (awaitRx at' st s).seq = s.seq := rfl
@[simp] theorem awaitRx_credit (at' : Ctrl) (st : SessionState) (s : State) : (awaitRx at' st s).credit = s.credit := rfl
@[simp] theorem awaitRx_creditInf (at' : Ctrl) (st : SessionState) (s : State) : (awaitRx at' st s).creditInf = s.creditInf := rfl
@[simp] theorem awaitRx_bs (at' : Ctrl) (st : SessionState) (s : State) : (awaitRx at' st s).bs = s.bs := rfl
@[simp] theorem awaitRx_stmin (at' : Ctrl) (st : SessionState) (s : State) : (awaitRx at' st s).stmin = s.stmin := rfl
@[simp] theorem awaitRx_cap (at' : Ctrl) (st : SessionState) (s : State) : (awaitRx at' st s).cap = s.cap := rfl
@[simp] theorem awaitRx_resultLen (at' : Ctrl) (st : SessionState) (s : State) : (awaitRx at' st s).resultLen = s.resultLen := rfl
@[simp] theorem awaitRx_service (at' : Ctrl) (st : SessionState) (s : State) : (awaitRx at' st s).service = s.service := rfl
@[simp] theorem awaitRx_pid (at' : Ctrl) (st : SessionState) (s : State) : (awaitRx at' st s).pid = s.pid := rfl
@[simp] theorem awaitRx_status (at' : Ctrl) (st : SessionState) (s : State) : (awaitRx at' st s).status = s.status := rfl
@[simp] theorem awaitRx_failCode (at' : Ctrl) (st : SessionState) (s : State) : (awaitRx at' st s).failCode = s.failCode := rfl
@[simp] theorem awaitRx_txf (at' : Ctrl) (st : SessionState) (s : State) : (awaitRx at' st s).txf = s.txf := rfl
@[simp] theorem awaitRx_written (at' : Ctrl) (st : SessionState) (s : State) : (awaitRx at' st s).written = s.written := rfl
@[simp] theorem awaitRx_pbuf (at' : Ctrl) (st : SessionState) (s : State) : (awaitRx at' st s).pbuf = s.pbuf := rfl
@[simp] theorem awaitRx_rpm (at' : Ctrl) (st : SessionState) (s : State) : (awaitRx at' st s).rpm = s.rpm := rfl
@[simp] theorem awaitRx_speed (at' : Ctrl) (st : SessionState) (s : State) : (awaitRx at' st s).speed = s.speed := rfl
@[simp] theorem awaitRx_host (at' : Ctrl) (st : SessionState) (s : State) : (awaitRx at' st s).host = s.host := rfl
@[simp] theorem awaitRx_link (at' : Ctrl) (st : SessionState) (s : State) : (awaitRx at' st s).link = s.link := rfl
@[simp] theorem awaitRx_txAnswers (at' : Ctrl) (st : SessionState) (s : State) : (awaitRx at' st s).txAnswers = s.txAnswers := rfl
@[simp] theorem awaitRx_timer (at' : Ctrl) (st : SessionState) (s : State) : (awaitRx at' st s).timer = s.timer := rfl
@[simp] theorem awaitRx_agenda (at' : Ctrl) (st : SessionState) (s : State) : (awaitRx at' st s).agenda = s.agenda := rfl
@[simp] theorem awaitRx_now (at' : Ctrl) (st : SessionState) (s : State) : (awaitRx at' st s).now = s.now := rfl
@[simp] theorem awaitRx_rxReqAt (at' : Ctrl) (st : SessionState) (s : State) : (awaitRx at' st s).rxReqAt = s.now := rfl
@[simp] theorem awaitRx_sleepDue (at' : Ctrl) (st : SessionState) (s : State) : (awaitRx at' st s).sleepDue = s.sleepDue := rfl
@[simp] theorem awaitRx_out (at' : Ctrl) (st : SessionState) (s : State) : (awaitRx at' st s).out = s.out ++ [.rxReq] := rfl

/-! ## `emit RxReq` by the identifier filter -/

@[simp] theorem filtered_cfg (s : State) : (filtered s).cfg = s.cfg := rfl
@[simp] theorem filtered_ctrl (s : State) : (filtered s).ctrl = s.ctrl := rfl
@[simp] theorem filtered_sess (s : State) : (filtered s).sess = s.sess := rfl
@[simp] theorem filtered_dir (s : State) : (filtered s).dir = s.dir := rfl
@[simp] theorem filtered_total (s : State) : (filtered s).total = s.total := rfl
@[simp] theorem filtered_cursor (s : State) : (filtered s).cursor = s.cursor := rfl
@[simp] theorem filtered_seq (s : State) : (filtered s).seq = s.seq := rfl
@[simp] theorem filtered_credit (s : State) : (filtered s).credit = s.credit := rfl
@[simp] theorem filtered_creditInf (s : State) : (filtered s).creditInf = s.creditInf := rfl
@[simp] theorem filtered_bs (s : State) : (filtered s).bs = s.bs := rfl
@[simp] theorem filtered_stmin (s : State) : (filtered s).stmin = s.stmin := rfl
@[simp] theorem filtered_cap (s : State) : (filtered s).cap = s.cap := rfl
@[simp] theorem filtered_resultLen (s : State) : (filtered s).resultLen = s.resultLen := rfl
@[simp] theorem filtered_service (s : State) : (filtered s).service = s.service := rfl
@[simp] theorem filtered_pid (s : State) : (filtered s).pid = s.pid := rfl
@[simp] theorem filtered_status (s : State) : (filtered s).status = s.status := rfl
@[simp] theorem filtered_failCode (s : State) : (filtered s).failCode = s.failCode := rfl
@[simp] theorem filtered_txf (s : State) : (filtered s).txf = s.txf := rfl
@[simp] theorem filtered_written (s : State) : (filtered s).written = s.written := rfl
@[simp] theorem filtered_pbuf (s : State) : (filtered s).pbuf = s.pbuf := rfl
@[simp] theorem filtered_rpm (s : State) : (filtered s).rpm = s.rpm := rfl
@[simp] theorem filtered_speed (s : State) : (filtered s).speed = s.speed := rfl
@[simp] theorem filtered_host (s : State) : (filtered s).host = s.host := rfl
@[simp] theorem filtered_link (s : State) : (filtered s).link = s.link := rfl
@[simp] theorem filtered_txAnswers (s : State) : (filtered s).txAnswers = s.txAnswers := rfl
@[simp] theorem filtered_timer (s : State) : (filtered s).timer = s.timer := rfl
@[simp] theorem filtered_agenda (s : State) : (filtered s).agenda = s.agenda := rfl
@[simp] theorem filtered_now (s : State) : (filtered s).now = s.now := rfl
@[simp] theorem filtered_rxReqAt (s : State) : (filtered s).rxReqAt = s.rxReqAt := rfl
@[simp] theorem filtered_sleepDue (s : State) : (filtered s).sleepDue = s.sleepDue := rfl
@[simp] theorem filtered_out (s : State) : (filtered s).out = s.out ++ [.rxReq] := rfl

/-! ## `emit Tx` -/

@[simp] theorem emitTx_cfg (at' : Ctrl) (d : Frame) (s : State) : (emitTx at' d s).cfg = s.cfg := rfl
@[simp] theorem emitTx_ctrl (at' : Ctrl) (d : Frame) (s : State) : (emitTx at' d s).ctrl = at' := rfl
@[simp] theorem emitTx_sess (at' : Ctrl) (d : Frame) (s : State) : (emitTx at' d s).sess = s.sess := rfl
@[simp] theorem emitTx_dir (at' : Ctrl) (d : Frame) (s : State) : (emitTx at' d s).dir = s.dir := rfl
@[simp] theorem emitTx_total (at' : Ctrl) (d : Frame) (s : State) : (emitTx at' d s).total = s.total := rfl
@[simp] theorem emitTx_cursor (at' : Ctrl) (d : Frame) (s : State) : (emitTx at' d s).cursor = s.cursor := rfl
@[simp] theorem emitTx_seq (at' : Ctrl) (d : Frame) (s : State) : (emitTx at' d s).seq = s.seq := rfl
@[simp] theorem emitTx_credit (at' : Ctrl) (d : Frame) (s : State) : (emitTx at' d s).credit = s.credit := rfl
@[simp] theorem emitTx_creditInf (at' : Ctrl) (d : Frame) (s : State) : (emitTx at' d s).creditInf = s.creditInf := rfl
@[simp] theorem emitTx_bs (at' : Ctrl) (d : Frame) (s : State) : (emitTx at' d s).bs = s.bs := rfl
@[simp] theorem emitTx_stmin (at' : Ctrl) (d : Frame) (s : State) : (emitTx at' d s).stmin = s.stmin := rfl
@[simp] theorem emitTx_cap (at' : Ctrl) (d : Frame) (s : State) : (emitTx at' d s).cap = s.cap := rfl
@[simp] theorem emitTx_resultLen (at' : Ctrl) (d : Frame) (s : State) : (emitTx at' d s).resultLen = s.resultLen := rfl
@[simp] theorem emitTx_service (at' : Ctrl) (d : Frame) (s : State) : (emitTx at' d s).service = s.service := rfl
@[simp] theorem emitTx_pid (at' : Ctrl) (d : Frame) (s : State) : (emitTx at' d s).pid = s.pid := rfl
@[simp] theorem emitTx_status (at' : Ctrl) (d : Frame) (s : State) : (emitTx at' d s).status = s.status := rfl
@[simp] theorem emitTx_failCode (at' : Ctrl) (d : Frame) (s : State) : (emitTx at' d s).failCode = s.failCode := rfl
@[simp] theorem emitTx_txf (at' : Ctrl) (d : Frame) (s : State) : (emitTx at' d s).txf = ⟨s.cfg.txId, d⟩ := rfl
@[simp] theorem emitTx_written (at' : Ctrl) (d : Frame) (s : State) : (emitTx at' d s).written = { s.written with txf := true } := rfl
@[simp] theorem emitTx_pbuf (at' : Ctrl) (d : Frame) (s : State) : (emitTx at' d s).pbuf = s.pbuf := rfl
@[simp] theorem emitTx_rpm (at' : Ctrl) (d : Frame) (s : State) : (emitTx at' d s).rpm = s.rpm := rfl
@[simp] theorem emitTx_speed (at' : Ctrl) (d : Frame) (s : State) : (emitTx at' d s).speed = s.speed := rfl
@[simp] theorem emitTx_host (at' : Ctrl) (d : Frame) (s : State) : (emitTx at' d s).host = s.host := rfl
@[simp] theorem emitTx_link (at' : Ctrl) (d : Frame) (s : State) : (emitTx at' d s).link = s.link := rfl
@[simp] theorem emitTx_txAnswers (at' : Ctrl) (d : Frame) (s : State) : (emitTx at' d s).txAnswers = s.txAnswers := rfl
@[simp] theorem emitTx_timer (at' : Ctrl) (d : Frame) (s : State) : (emitTx at' d s).timer = s.timer := rfl
@[simp] theorem emitTx_agenda (at' : Ctrl) (d : Frame) (s : State) : (emitTx at' d s).agenda = s.agenda := rfl
@[simp] theorem emitTx_now (at' : Ctrl) (d : Frame) (s : State) : (emitTx at' d s).now = s.now := rfl
@[simp] theorem emitTx_rxReqAt (at' : Ctrl) (d : Frame) (s : State) : (emitTx at' d s).rxReqAt = s.rxReqAt := rfl
@[simp] theorem emitTx_sleepDue (at' : Ctrl) (d : Frame) (s : State) : (emitTx at' d s).sleepDue = s.sleepDue := rfl
@[simp] theorem emitTx_out (at' : Ctrl) (d : Frame) (s : State) : (emitTx at' d s).out = s.out ++ [.tx s.cfg.txId d] := rfl

/-! ## `emit Sleep` -/

@[simp] theorem emitSleep_cfg (us : Nat) (s : State) : (emitSleep us s).cfg = s.cfg := rfl
@[simp] theorem emitSleep_ctrl (us : Nat) (s : State) : (emitSleep us s).ctrl = .sleep := rfl
@[simp] theorem emitSleep_sess (us : Nat) (s : State) : (emitSleep us s).sess = s.sess := rfl
@[simp] theorem emitSleep_dir (us : Nat) (s : State) : (emitSleep us s).dir = s.dir := rfl
@[simp] theorem emitSleep_total (us : Nat) (s : State) : (emitSleep us s).total = s.total := rfl
@[simp] theorem emitSleep_cursor (us : Nat) (s : State) : (emitSleep us s).cursor = s.cursor := rfl
@[simp] theorem emitSleep_seq (us : Nat) (s : State) : (emitSleep us s).seq = s.seq := rfl
@[simp] theorem emitSleep_credit (us : Nat) (s : State) : (emitSleep us s).credit = s.credit := rfl
@[simp] theorem emitSleep_creditInf (us : Nat) (s : State) : (emitSleep us s).creditInf = s.creditInf := rfl
@[simp] theorem emitSleep_bs (us : Nat) (s : State) : (emitSleep us s).bs = s.bs := rfl
@[simp] theorem emitSleep_stmin (us : Nat) (s : State) : (emitSleep us s).stmin = s.stmin := rfl
@[simp] theorem emitSleep_cap (us : Nat) (s : State) : (emitSleep us s).cap = s.cap := rfl
@[simp] theorem emitSleep_resultLen (us : Nat) (s : State) : (emitSleep us s).resultLen = s.resultLen := rfl
@[simp] theorem emitSleep_service (us : Nat) (s : State) : (emitSleep us s).service = s.service := rfl
@[simp] theorem emitSleep_pid (us : Nat) (s : State) : (emitSleep us s).pid = s.pid := rfl
@[simp] theorem emitSleep_status (us : Nat) (s : State) : (emitSleep us s).status = s.status := rfl
@[simp] theorem emitSleep_failCode (us : Nat) (s : State) : (emitSleep us s).failCode = s.failCode := rfl
@[simp] theorem emitSleep_txf (us : Nat) (s : State) : (emitSleep us s).txf = s.txf := rfl
@[simp] theorem emitSleep_written (us : Nat) (s : State) : (emitSleep us s).written = s.written := rfl
@[simp] theorem emitSleep_pbuf (us : Nat) (s : State) : (emitSleep us s).pbuf = s.pbuf := rfl
@[simp] theorem emitSleep_rpm (us : Nat) (s : State) : (emitSleep us s).rpm = s.rpm := rfl
@[simp] theorem emitSleep_speed (us : Nat) (s : State) : (emitSleep us s).speed = s.speed := rfl
@[simp] theorem emitSleep_host (us : Nat) (s : State) : (emitSleep us s).host = s.host := rfl
@[simp] theorem emitSleep_link (us : Nat) (s : State) : (emitSleep us s).link = s.link := rfl
@[simp] theorem emitSleep_txAnswers (us : Nat) (s : State) : (emitSleep us s).txAnswers = s.txAnswers := rfl
@[simp] theorem emitSleep_timer (us : Nat) (s : State) : (emitSleep us s).timer = s.timer := rfl
@[simp] theorem emitSleep_agenda (us : Nat) (s : State) : (emitSleep us s).agenda = s.agenda := rfl
@[simp] theorem emitSleep_now (us : Nat) (s : State) : (emitSleep us s).now = s.now := rfl
@[simp] theorem emitSleep_rxReqAt (us : Nat) (s : State) : (emitSleep us s).rxReqAt = s.rxReqAt := rfl
@[simp] theorem emitSleep_sleepDue (us : Nat) (s : State) : (emitSleep us s).sleepDue = s.now + us := rfl
@[simp] theorem emitSleep_out (us : Nat) (s : State) : (emitSleep us s).out = s.out ++ [.sleep us] := rfl

/-! ## `Drop` -/

@[simp] theorem drop_cfg (k : ErrorKind) (s : State) : (drop k s).cfg = s.cfg := rfl
@[simp] theorem drop_ctrl (k : ErrorKind) (s : State) : (drop k s).ctrl = s.ctrl := rfl
@[simp] theorem drop_sess (k : ErrorKind) (s : State) : (drop k s).sess = s.sess := rfl
@[simp] theorem drop_dir (k : ErrorKind) (s : State) : (drop k s).dir = s.dir := rfl
@[simp] theorem drop_total (k : ErrorKind) (s : State) : (drop k s).total = s.total := rfl
@[simp] theorem drop_cursor (k : ErrorKind) (s : State) : (drop k s).cursor = s.cursor := rfl
@[simp] theorem drop_seq (k : ErrorKind) (s : State) : (drop k s).seq = s.seq := rfl
@[simp] theorem drop_credit (k : ErrorKind) (s : State) : (drop k s).credit = s.credit := rfl
@[simp] theorem drop_creditInf (k : ErrorKind) (s : State) : (drop k s).creditInf = s.creditInf := rfl
@[simp] theorem drop_bs (k : ErrorKind) (s : State) : (drop k s).bs = s.bs := rfl
@[simp] theorem drop_stmin (k : ErrorKind) (s : State) : (drop k s).stmin = s.stmin := rfl
@[simp] theorem drop_cap (k : ErrorKind) (s : State) : (drop k s).cap = s.cap := rfl
@[simp] theorem drop_resultLen (k : ErrorKind) (s : State) : (drop k s).resultLen = s.resultLen := rfl
@[simp] theorem drop_service (k : ErrorKind) (s : State) : (drop k s).service = s.service := rfl
@[simp] theorem drop_pid (k : ErrorKind) (s : State) : (drop k s).pid = s.pid := rfl
@[simp] theorem drop_status (k : ErrorKind) (s : State) : (drop k s).status = .failed := rfl
@[simp] theorem drop_failCode (k : ErrorKind) (s : State) : (drop k s).failCode = k.code := rfl
@[simp] theorem drop_txf (k : ErrorKind) (s : State) : (drop k s).txf = s.txf := rfl
@[simp] theorem drop_written (k : ErrorKind) (s : State) : (drop k s).written = s.written := rfl
@[simp] theorem drop_pbuf (k : ErrorKind) (s : State) : (drop k s).pbuf = s.pbuf := rfl
@[simp] theorem drop_rpm (k : ErrorKind) (s : State) : (drop k s).rpm = s.rpm := rfl
@[simp] theorem drop_speed (k : ErrorKind) (s : State) : (drop k s).speed = s.speed := rfl
@[simp] theorem drop_host (k : ErrorKind) (s : State) : (drop k s).host = s.host := rfl
@[simp] theorem drop_link (k : ErrorKind) (s : State) : (drop k s).link = s.link := rfl
@[simp] theorem drop_txAnswers (k : ErrorKind) (s : State) : (drop k s).txAnswers = s.txAnswers := rfl
@[simp] theorem drop_timer (k : ErrorKind) (s : State) : (drop k s).timer = s.timer := rfl
@[simp] theorem drop_agenda (k : ErrorKind) (s : State) : (drop k s).agenda = s.agenda := rfl
@[simp] theorem drop_now (k : ErrorKind) (s : State) : (drop k s).now = s.now := rfl
@[simp] theorem drop_rxReqAt (k : ErrorKind) (s : State) : (drop k s).rxReqAt = s.now := rfl
@[simp] theorem drop_sleepDue (k : ErrorKind) (s : State) : (drop k s).sleepDue = s.sleepDue := rfl
@[simp] theorem drop_out (k : ErrorKind) (s : State) : (drop k s).out = s.out ++ [.log k, .rxReq] := rfl

/-! ## `raise Fail`: the role decides where it ends -/

@[simp] theorem raiseFail_cfg (k : ErrorKind) (s : State) : (raiseFail k s).cfg = s.cfg := by
  unfold raiseFail; split <;> rfl
@[simp] theorem raiseFail_ctrl (k : ErrorKind) (s : State) : (raiseFail k s).ctrl = if s.cfg.role = .tester then .idleCmd else .listen := by
  unfold raiseFail; cases h : s.cfg.role <;> simp
@[simp] theorem raiseFail_sess (k : ErrorKind) (s : State) : (raiseFail k s).sess = .idle := by
  unfold raiseFail; split <;> rfl
@[simp] theorem raiseFail_dir (k : ErrorKind) (s : State) : (raiseFail k s).dir = s.dir := by
  unfold raiseFail; split <;> rfl
@[simp] theorem raiseFail_total (k : ErrorKind) (s : State) : (raiseFail k s).total = s.total := by
  unfold raiseFail; split <;> rfl
@[simp] theorem raiseFail_cursor (k : ErrorKind) (s : State) : (raiseFail k s).cursor = s.cursor := by
  unfold raiseFail; split <;> rfl
@[simp] theorem raiseFail_seq (k : ErrorKind) (s : State) : (raiseFail k s).seq = s.seq := by
  unfold raiseFail; split <;> rfl
@[simp] theorem raiseFail_credit (k : ErrorKind) (s : State) : (raiseFail k s).credit = s.credit := by
  unfold raiseFail; split <;> rfl
@[simp] theorem raiseFail_creditInf (k : ErrorKind) (s : State) : (raiseFail k s).creditInf = s.creditInf := by
  unfold raiseFail; split <;> rfl
@[simp] theorem raiseFail_bs (k : ErrorKind) (s : State) : (raiseFail k s).bs = s.bs := by
  unfold raiseFail; split <;> rfl
@[simp] theorem raiseFail_stmin (k : ErrorKind) (s : State) : (raiseFail k s).stmin = s.stmin := by
  unfold raiseFail; split <;> rfl
@[simp] theorem raiseFail_cap (k : ErrorKind) (s : State) : (raiseFail k s).cap = s.cap := by
  unfold raiseFail; split <;> rfl
@[simp] theorem raiseFail_resultLen (k : ErrorKind) (s : State) : (raiseFail k s).resultLen = s.resultLen := by
  unfold raiseFail; split <;> rfl
@[simp] theorem raiseFail_service (k : ErrorKind) (s : State) : (raiseFail k s).service = s.service := by
  unfold raiseFail; split <;> rfl
@[simp] theorem raiseFail_pid (k : ErrorKind) (s : State) : (raiseFail k s).pid = s.pid := by
  unfold raiseFail; split <;> rfl
@[simp] theorem raiseFail_status (k : ErrorKind) (s : State) : (raiseFail k s).status = .failed := by
  unfold raiseFail; split <;> rfl
@[simp] theorem raiseFail_failCode (k : ErrorKind) (s : State) : (raiseFail k s).failCode = k.code := by
  unfold raiseFail; split <;> rfl
@[simp] theorem raiseFail_txf (k : ErrorKind) (s : State) : (raiseFail k s).txf = s.txf := by
  unfold raiseFail; split <;> rfl
@[simp] theorem raiseFail_written (k : ErrorKind) (s : State) : (raiseFail k s).written = s.written := by
  unfold raiseFail; split <;> rfl
@[simp] theorem raiseFail_pbuf (k : ErrorKind) (s : State) : (raiseFail k s).pbuf = s.pbuf := by
  unfold raiseFail; split <;> rfl
@[simp] theorem raiseFail_rpm (k : ErrorKind) (s : State) : (raiseFail k s).rpm = s.rpm := by
  unfold raiseFail; split <;> rfl
@[simp] theorem raiseFail_speed (k : ErrorKind) (s : State) : (raiseFail k s).speed = s.speed := by
  unfold raiseFail; split <;> rfl
@[simp] theorem raiseFail_host (k : ErrorKind) (s : State) : (raiseFail k s).host = s.host := by
  unfold raiseFail; split <;> rfl
@[simp] theorem raiseFail_link (k : ErrorKind) (s : State) : (raiseFail k s).link = s.link := by
  unfold raiseFail; split <;> rfl
@[simp] theorem raiseFail_txAnswers (k : ErrorKind) (s : State) : (raiseFail k s).txAnswers = s.txAnswers := by
  unfold raiseFail; split <;> rfl
@[simp] theorem raiseFail_timer (k : ErrorKind) (s : State) : (raiseFail k s).timer = s.timer := by
  unfold raiseFail; split <;> rfl
@[simp] theorem raiseFail_agenda (k : ErrorKind) (s : State) : (raiseFail k s).agenda = s.agenda := by
  unfold raiseFail; split <;> rfl
@[simp] theorem raiseFail_now (k : ErrorKind) (s : State) : (raiseFail k s).now = s.now := by
  unfold raiseFail; split <;> rfl
@[simp] theorem raiseFail_rxReqAt (k : ErrorKind) (s : State) : (raiseFail k s).rxReqAt = if s.cfg.role = .tester then s.rxReqAt else s.now := by
  unfold raiseFail; cases h : s.cfg.role <;> simp
@[simp] theorem raiseFail_sleepDue (k : ErrorKind) (s : State) : (raiseFail k s).sleepDue = s.sleepDue := by
  unfold raiseFail; split <;> rfl
@[simp] theorem raiseFail_out (k : ErrorKind) (s : State) : (raiseFail k s).out = s.out ++ [.log k, if s.cfg.role = .tester then .complete (.err k) else .rxReq] := by
  unfold raiseFail; cases h : s.cfg.role <;> simp

/-! ## `raise Done` -/

@[simp] theorem raiseDone_cfg (s : State) : (raiseDone s).cfg = s.cfg := by
  unfold raiseDone; split <;> rfl
@[simp] theorem raiseDone_ctrl (s : State) : (raiseDone s).ctrl = if s.cfg.role = .tester then .idleCmd else .listen := by
  unfold raiseDone; cases h : s.cfg.role <;> simp
@[simp] theorem raiseDone_sess (s : State) : (raiseDone s).sess = .idle := by
  unfold raiseDone; split <;> rfl
@[simp] theorem raiseDone_dir (s : State) : (raiseDone s).dir = s.dir := by
  unfold raiseDone; split <;> rfl
@[simp] theorem raiseDone_total (s : State) : (raiseDone s).total = s.total := by
  unfold raiseDone; split <;> rfl
@[simp] theorem raiseDone_cursor (s : State) : (raiseDone s).cursor = s.cursor := by
  unfold raiseDone; split <;> rfl
@[simp] theorem raiseDone_seq (s : State) : (raiseDone s).seq = s.seq := by
  unfold raiseDone; split <;> rfl
@[simp] theorem raiseDone_credit (s : State) : (raiseDone s).credit = s.credit := by
  unfold raiseDone; split <;> rfl
@[simp] theorem raiseDone_creditInf (s : State) : (raiseDone s).creditInf = s.creditInf := by
  unfold raiseDone; split <;> rfl
@[simp] theorem raiseDone_bs (s : State) : (raiseDone s).bs = s.bs := by
  unfold raiseDone; split <;> rfl
@[simp] theorem raiseDone_stmin (s : State) : (raiseDone s).stmin = s.stmin := by
  unfold raiseDone; split <;> rfl
@[simp] theorem raiseDone_cap (s : State) : (raiseDone s).cap = s.cap := by
  unfold raiseDone; split <;> rfl
@[simp] theorem raiseDone_resultLen (s : State) : (raiseDone s).resultLen = if s.cfg.role = .tester then s.total else s.resultLen := by
  unfold raiseDone; cases h : s.cfg.role <;> simp
@[simp] theorem raiseDone_service (s : State) : (raiseDone s).service = s.service := by
  unfold raiseDone; split <;> rfl
@[simp] theorem raiseDone_pid (s : State) : (raiseDone s).pid = s.pid := by
  unfold raiseDone; split <;> rfl
@[simp] theorem raiseDone_status (s : State) : (raiseDone s).status = .done := by
  unfold raiseDone; split <;> rfl
@[simp] theorem raiseDone_failCode (s : State) : (raiseDone s).failCode = s.failCode := by
  unfold raiseDone; split <;> rfl
@[simp] theorem raiseDone_txf (s : State) : (raiseDone s).txf = s.txf := by
  unfold raiseDone; split <;> rfl
@[simp] theorem raiseDone_written (s : State) : (raiseDone s).written = if s.cfg.role = .tester then { s.written with resultLen := true } else s.written := by
  unfold raiseDone; cases h : s.cfg.role <;> simp
@[simp] theorem raiseDone_pbuf (s : State) : (raiseDone s).pbuf = s.pbuf := by
  unfold raiseDone; split <;> rfl
@[simp] theorem raiseDone_rpm (s : State) : (raiseDone s).rpm = s.rpm := by
  unfold raiseDone; split <;> rfl
@[simp] theorem raiseDone_speed (s : State) : (raiseDone s).speed = s.speed := by
  unfold raiseDone; split <;> rfl
@[simp] theorem raiseDone_host (s : State) : (raiseDone s).host = s.host := by
  unfold raiseDone; split <;> rfl
@[simp] theorem raiseDone_link (s : State) : (raiseDone s).link = s.link := by
  unfold raiseDone; split <;> rfl
@[simp] theorem raiseDone_txAnswers (s : State) : (raiseDone s).txAnswers = s.txAnswers := by
  unfold raiseDone; split <;> rfl
@[simp] theorem raiseDone_timer (s : State) : (raiseDone s).timer = s.timer := by
  unfold raiseDone; split <;> rfl
@[simp] theorem raiseDone_agenda (s : State) : (raiseDone s).agenda = s.agenda := by
  unfold raiseDone; split <;> rfl
@[simp] theorem raiseDone_now (s : State) : (raiseDone s).now = s.now := by
  unfold raiseDone; split <;> rfl
@[simp] theorem raiseDone_rxReqAt (s : State) : (raiseDone s).rxReqAt = if s.cfg.role = .tester then s.rxReqAt else s.now := by
  unfold raiseDone; cases h : s.cfg.role <;> simp
@[simp] theorem raiseDone_sleepDue (s : State) : (raiseDone s).sleepDue = s.sleepDue := by
  unfold raiseDone; split <;> rfl
@[simp] theorem raiseDone_out (s : State) : (raiseDone s).out = s.out ++ [if s.cfg.role = .tester then .complete (.ok s.total) else .rxReq] := by
  unfold raiseDone; cases h : s.cfg.role <;> simp

/-! ## CREDIT -/

@[simp] theorem setCredit_cfg (v : Byte) (s : State) : (setCredit v s).cfg = s.cfg := rfl
@[simp] theorem setCredit_ctrl (v : Byte) (s : State) : (setCredit v s).ctrl = s.ctrl := rfl
@[simp] theorem setCredit_sess (v : Byte) (s : State) : (setCredit v s).sess = s.sess := rfl
@[simp] theorem setCredit_dir (v : Byte) (s : State) : (setCredit v s).dir = s.dir := rfl
@[simp] theorem setCredit_total (v : Byte) (s : State) : (setCredit v s).total = s.total := rfl
@[simp] theorem setCredit_cursor (v : Byte) (s : State) : (setCredit v s).cursor = s.cursor := rfl
@[simp] theorem setCredit_seq (v : Byte) (s : State) : (setCredit v s).seq = s.seq := rfl
@[simp] theorem setCredit_credit (v : Byte) (s : State) : (setCredit v s).credit = v := rfl
@[simp] theorem setCredit_creditInf (v : Byte) (s : State) : (setCredit v s).creditInf = s.creditInf := rfl
@[simp] theorem setCredit_bs (v : Byte) (s : State) : (setCredit v s).bs = s.bs := rfl
@[simp] theorem setCredit_stmin (v : Byte) (s : State) : (setCredit v s).stmin = s.stmin := rfl
@[simp] theorem setCredit_cap (v : Byte) (s : State) : (setCredit v s).cap = s.cap := rfl
@[simp] theorem setCredit_resultLen (v : Byte) (s : State) : (setCredit v s).resultLen = s.resultLen := rfl
@[simp] theorem setCredit_service (v : Byte) (s : State) : (setCredit v s).service = s.service := rfl
@[simp] theorem setCredit_pid (v : Byte) (s : State) : (setCredit v s).pid = s.pid := rfl
@[simp] theorem setCredit_status (v : Byte) (s : State) : (setCredit v s).status = s.status := rfl
@[simp] theorem setCredit_failCode (v : Byte) (s : State) : (setCredit v s).failCode = s.failCode := rfl
@[simp] theorem setCredit_txf (v : Byte) (s : State) : (setCredit v s).txf = s.txf := rfl
@[simp] theorem setCredit_written (v : Byte) (s : State) : (setCredit v s).written = { s.written with credit := true } := rfl
@[simp] theorem setCredit_pbuf (v : Byte) (s : State) : (setCredit v s).pbuf = s.pbuf := rfl
@[simp] theorem setCredit_rpm (v : Byte) (s : State) : (setCredit v s).rpm = s.rpm := rfl
@[simp] theorem setCredit_speed (v : Byte) (s : State) : (setCredit v s).speed = s.speed := rfl
@[simp] theorem setCredit_host (v : Byte) (s : State) : (setCredit v s).host = s.host := rfl
@[simp] theorem setCredit_link (v : Byte) (s : State) : (setCredit v s).link = s.link := rfl
@[simp] theorem setCredit_txAnswers (v : Byte) (s : State) : (setCredit v s).txAnswers = s.txAnswers := rfl
@[simp] theorem setCredit_timer (v : Byte) (s : State) : (setCredit v s).timer = s.timer := rfl
@[simp] theorem setCredit_agenda (v : Byte) (s : State) : (setCredit v s).agenda = s.agenda := rfl
@[simp] theorem setCredit_now (v : Byte) (s : State) : (setCredit v s).now = s.now := rfl
@[simp] theorem setCredit_rxReqAt (v : Byte) (s : State) : (setCredit v s).rxReqAt = s.rxReqAt := rfl
@[simp] theorem setCredit_sleepDue (v : Byte) (s : State) : (setCredit v s).sleepDue = s.sleepDue := rfl
@[simp] theorem setCredit_out (v : Byte) (s : State) : (setCredit v s).out = s.out := rfl

/-! ## CURSOR and SEQ after a CF -/

@[simp] theorem advanceChunk_cfg (n : Nat) (s : State) : (advanceChunk n s).cfg = s.cfg := rfl
@[simp] theorem advanceChunk_ctrl (n : Nat) (s : State) : (advanceChunk n s).ctrl = s.ctrl := rfl
@[simp] theorem advanceChunk_sess (n : Nat) (s : State) : (advanceChunk n s).sess = s.sess := rfl
@[simp] theorem advanceChunk_dir (n : Nat) (s : State) : (advanceChunk n s).dir = s.dir := rfl
@[simp] theorem advanceChunk_total (n : Nat) (s : State) : (advanceChunk n s).total = s.total := rfl
@[simp] theorem advanceChunk_cursor (n : Nat) (s : State) : (advanceChunk n s).cursor = advance s.cursor n := rfl
@[simp] theorem advanceChunk_seq (n : Nat) (s : State) : (advanceChunk n s).seq = nextSeq s.seq := rfl
@[simp] theorem advanceChunk_credit (n : Nat) (s : State) : (advanceChunk n s).credit = s.credit := rfl
@[simp] theorem advanceChunk_creditInf (n : Nat) (s : State) : (advanceChunk n s).creditInf = s.creditInf := rfl
@[simp] theorem advanceChunk_bs (n : Nat) (s : State) : (advanceChunk n s).bs = s.bs := rfl
@[simp] theorem advanceChunk_stmin (n : Nat) (s : State) : (advanceChunk n s).stmin = s.stmin := rfl
@[simp] theorem advanceChunk_cap (n : Nat) (s : State) : (advanceChunk n s).cap = s.cap := rfl
@[simp] theorem advanceChunk_resultLen (n : Nat) (s : State) : (advanceChunk n s).resultLen = s.resultLen := rfl
@[simp] theorem advanceChunk_service (n : Nat) (s : State) : (advanceChunk n s).service = s.service := rfl
@[simp] theorem advanceChunk_pid (n : Nat) (s : State) : (advanceChunk n s).pid = s.pid := rfl
@[simp] theorem advanceChunk_status (n : Nat) (s : State) : (advanceChunk n s).status = s.status := rfl
@[simp] theorem advanceChunk_failCode (n : Nat) (s : State) : (advanceChunk n s).failCode = s.failCode := rfl
@[simp] theorem advanceChunk_txf (n : Nat) (s : State) : (advanceChunk n s).txf = s.txf := rfl
@[simp] theorem advanceChunk_written (n : Nat) (s : State) : (advanceChunk n s).written = { s.written with cursor := true, seq := true } := rfl
@[simp] theorem advanceChunk_pbuf (n : Nat) (s : State) : (advanceChunk n s).pbuf = s.pbuf := rfl
@[simp] theorem advanceChunk_rpm (n : Nat) (s : State) : (advanceChunk n s).rpm = s.rpm := rfl
@[simp] theorem advanceChunk_speed (n : Nat) (s : State) : (advanceChunk n s).speed = s.speed := rfl
@[simp] theorem advanceChunk_host (n : Nat) (s : State) : (advanceChunk n s).host = s.host := rfl
@[simp] theorem advanceChunk_link (n : Nat) (s : State) : (advanceChunk n s).link = s.link := rfl
@[simp] theorem advanceChunk_txAnswers (n : Nat) (s : State) : (advanceChunk n s).txAnswers = s.txAnswers := rfl
@[simp] theorem advanceChunk_timer (n : Nat) (s : State) : (advanceChunk n s).timer = s.timer := rfl
@[simp] theorem advanceChunk_agenda (n : Nat) (s : State) : (advanceChunk n s).agenda = s.agenda := rfl
@[simp] theorem advanceChunk_now (n : Nat) (s : State) : (advanceChunk n s).now = s.now := rfl
@[simp] theorem advanceChunk_rxReqAt (n : Nat) (s : State) : (advanceChunk n s).rxReqAt = s.rxReqAt := rfl
@[simp] theorem advanceChunk_sleepDue (n : Nat) (s : State) : (advanceChunk n s).sleepDue = s.sleepDue := rfl
@[simp] theorem advanceChunk_out (n : Nat) (s : State) : (advanceChunk n s).out = s.out := rfl

/-! ## The head of `SEND` -/

@[simp] theorem beginSend_cfg (len : Len) (s : State) : (beginSend len s).cfg = s.cfg := rfl
@[simp] theorem beginSend_ctrl (len : Len) (s : State) : (beginSend len s).ctrl = s.ctrl := rfl
@[simp] theorem beginSend_sess (len : Len) (s : State) : (beginSend len s).sess = .idle := rfl
@[simp] theorem beginSend_dir (len : Len) (s : State) : (beginSend len s).dir = .sending := rfl
@[simp] theorem beginSend_total (len : Len) (s : State) : (beginSend len s).total = len := rfl
@[simp] theorem beginSend_cursor (len : Len) (s : State) : (beginSend len s).cursor = 0 := rfl
@[simp] theorem beginSend_seq (len : Len) (s : State) : (beginSend len s).seq = s.seq := rfl
@[simp] theorem beginSend_credit (len : Len) (s : State) : (beginSend len s).credit = s.credit := rfl
@[simp] theorem beginSend_creditInf (len : Len) (s : State) : (beginSend len s).creditInf = s.creditInf := rfl
@[simp] theorem beginSend_bs (len : Len) (s : State) : (beginSend len s).bs = s.bs := rfl
@[simp] theorem beginSend_stmin (len : Len) (s : State) : (beginSend len s).stmin = s.stmin := rfl
@[simp] theorem beginSend_cap (len : Len) (s : State) : (beginSend len s).cap = s.cap := rfl
@[simp] theorem beginSend_resultLen (len : Len) (s : State) : (beginSend len s).resultLen = s.resultLen := rfl
@[simp] theorem beginSend_service (len : Len) (s : State) : (beginSend len s).service = s.service := rfl
@[simp] theorem beginSend_pid (len : Len) (s : State) : (beginSend len s).pid = s.pid := rfl
@[simp] theorem beginSend_status (len : Len) (s : State) : (beginSend len s).status = .busy := rfl
@[simp] theorem beginSend_failCode (len : Len) (s : State) : (beginSend len s).failCode = s.failCode := rfl
@[simp] theorem beginSend_txf (len : Len) (s : State) : (beginSend len s).txf = s.txf := rfl
@[simp] theorem beginSend_written (len : Len) (s : State) : (beginSend len s).written = { s.written with dir := true, total := true, cursor := true } := rfl
@[simp] theorem beginSend_pbuf (len : Len) (s : State) : (beginSend len s).pbuf = s.pbuf := rfl
@[simp] theorem beginSend_rpm (len : Len) (s : State) : (beginSend len s).rpm = s.rpm := rfl
@[simp] theorem beginSend_speed (len : Len) (s : State) : (beginSend len s).speed = s.speed := rfl
@[simp] theorem beginSend_host (len : Len) (s : State) : (beginSend len s).host = s.host := rfl
@[simp] theorem beginSend_link (len : Len) (s : State) : (beginSend len s).link = s.link := rfl
@[simp] theorem beginSend_txAnswers (len : Len) (s : State) : (beginSend len s).txAnswers = s.txAnswers := rfl
@[simp] theorem beginSend_timer (len : Len) (s : State) : (beginSend len s).timer = s.timer := rfl
@[simp] theorem beginSend_agenda (len : Len) (s : State) : (beginSend len s).agenda = s.agenda := rfl
@[simp] theorem beginSend_now (len : Len) (s : State) : (beginSend len s).now = s.now := rfl
@[simp] theorem beginSend_rxReqAt (len : Len) (s : State) : (beginSend len s).rxReqAt = s.rxReqAt := rfl
@[simp] theorem beginSend_sleepDue (len : Len) (s : State) : (beginSend len s).sleepDue = s.sleepDue := rfl
@[simp] theorem beginSend_out (len : Len) (s : State) : (beginSend len s).out = s.out := rfl

/-! ## The end of a response SF -/

@[simp] theorem sentSf_cfg (s : State) : (sentSf s).cfg = s.cfg := rfl
@[simp] theorem sentSf_ctrl (s : State) : (sentSf s).ctrl = s.ctrl := rfl
@[simp] theorem sentSf_sess (s : State) : (sentSf s).sess = s.sess := rfl
@[simp] theorem sentSf_dir (s : State) : (sentSf s).dir = s.dir := rfl
@[simp] theorem sentSf_total (s : State) : (sentSf s).total = s.total := rfl
@[simp] theorem sentSf_cursor (s : State) : (sentSf s).cursor = s.total := rfl
@[simp] theorem sentSf_seq (s : State) : (sentSf s).seq = s.seq := rfl
@[simp] theorem sentSf_credit (s : State) : (sentSf s).credit = s.credit := rfl
@[simp] theorem sentSf_creditInf (s : State) : (sentSf s).creditInf = s.creditInf := rfl
@[simp] theorem sentSf_bs (s : State) : (sentSf s).bs = s.bs := rfl
@[simp] theorem sentSf_stmin (s : State) : (sentSf s).stmin = s.stmin := rfl
@[simp] theorem sentSf_cap (s : State) : (sentSf s).cap = s.cap := rfl
@[simp] theorem sentSf_resultLen (s : State) : (sentSf s).resultLen = s.resultLen := rfl
@[simp] theorem sentSf_service (s : State) : (sentSf s).service = s.service := rfl
@[simp] theorem sentSf_pid (s : State) : (sentSf s).pid = s.pid := rfl
@[simp] theorem sentSf_status (s : State) : (sentSf s).status = s.status := rfl
@[simp] theorem sentSf_failCode (s : State) : (sentSf s).failCode = s.failCode := rfl
@[simp] theorem sentSf_txf (s : State) : (sentSf s).txf = s.txf := rfl
@[simp] theorem sentSf_written (s : State) : (sentSf s).written = { s.written with cursor := true } := rfl
@[simp] theorem sentSf_pbuf (s : State) : (sentSf s).pbuf = s.pbuf := rfl
@[simp] theorem sentSf_rpm (s : State) : (sentSf s).rpm = s.rpm := rfl
@[simp] theorem sentSf_speed (s : State) : (sentSf s).speed = s.speed := rfl
@[simp] theorem sentSf_host (s : State) : (sentSf s).host = s.host := rfl
@[simp] theorem sentSf_link (s : State) : (sentSf s).link = s.link := rfl
@[simp] theorem sentSf_txAnswers (s : State) : (sentSf s).txAnswers = s.txAnswers := rfl
@[simp] theorem sentSf_timer (s : State) : (sentSf s).timer = s.timer := rfl
@[simp] theorem sentSf_agenda (s : State) : (sentSf s).agenda = s.agenda := rfl
@[simp] theorem sentSf_now (s : State) : (sentSf s).now = s.now := rfl
@[simp] theorem sentSf_rxReqAt (s : State) : (sentSf s).rxReqAt = s.rxReqAt := rfl
@[simp] theorem sentSf_sleepDue (s : State) : (sentSf s).sleepDue = s.sleepDue := rfl
@[simp] theorem sentSf_out (s : State) : (sentSf s).out = s.out := rfl

/-! ## The end of a response FF -/

@[simp] theorem sentFf_cfg (s : State) : (sentFf s).cfg = s.cfg := rfl
@[simp] theorem sentFf_ctrl (s : State) : (sentFf s).ctrl = s.ctrl := rfl
@[simp] theorem sentFf_sess (s : State) : (sentFf s).sess = s.sess := rfl
@[simp] theorem sentFf_dir (s : State) : (sentFf s).dir = s.dir := rfl
@[simp] theorem sentFf_total (s : State) : (sentFf s).total = s.total := rfl
@[simp] theorem sentFf_cursor (s : State) : (sentFf s).cursor = 6 := rfl
@[simp] theorem sentFf_seq (s : State) : (sentFf s).seq = 1 := rfl
@[simp] theorem sentFf_credit (s : State) : (sentFf s).credit = s.credit := rfl
@[simp] theorem sentFf_creditInf (s : State) : (sentFf s).creditInf = s.creditInf := rfl
@[simp] theorem sentFf_bs (s : State) : (sentFf s).bs = s.bs := rfl
@[simp] theorem sentFf_stmin (s : State) : (sentFf s).stmin = s.stmin := rfl
@[simp] theorem sentFf_cap (s : State) : (sentFf s).cap = s.cap := rfl
@[simp] theorem sentFf_resultLen (s : State) : (sentFf s).resultLen = s.resultLen := rfl
@[simp] theorem sentFf_service (s : State) : (sentFf s).service = s.service := rfl
@[simp] theorem sentFf_pid (s : State) : (sentFf s).pid = s.pid := rfl
@[simp] theorem sentFf_status (s : State) : (sentFf s).status = s.status := rfl
@[simp] theorem sentFf_failCode (s : State) : (sentFf s).failCode = s.failCode := rfl
@[simp] theorem sentFf_txf (s : State) : (sentFf s).txf = s.txf := rfl
@[simp] theorem sentFf_written (s : State) : (sentFf s).written = { s.written with cursor := true, seq := true } := rfl
@[simp] theorem sentFf_pbuf (s : State) : (sentFf s).pbuf = s.pbuf := rfl
@[simp] theorem sentFf_rpm (s : State) : (sentFf s).rpm = s.rpm := rfl
@[simp] theorem sentFf_speed (s : State) : (sentFf s).speed = s.speed := rfl
@[simp] theorem sentFf_host (s : State) : (sentFf s).host = s.host := rfl
@[simp] theorem sentFf_link (s : State) : (sentFf s).link = s.link := rfl
@[simp] theorem sentFf_txAnswers (s : State) : (sentFf s).txAnswers = s.txAnswers := rfl
@[simp] theorem sentFf_timer (s : State) : (sentFf s).timer = s.timer := rfl
@[simp] theorem sentFf_agenda (s : State) : (sentFf s).agenda = s.agenda := rfl
@[simp] theorem sentFf_now (s : State) : (sentFf s).now = s.now := rfl
@[simp] theorem sentFf_rxReqAt (s : State) : (sentFf s).rxReqAt = s.rxReqAt := rfl
@[simp] theorem sentFf_sleepDue (s : State) : (sentFf s).sleepDue = s.sleepDue := rfl
@[simp] theorem sentFf_out (s : State) : (sentFf s).out = s.out := rfl

/-! ## FC(CTS) -/

@[simp] theorem grantCredit_cfg (bs stmin : Byte) (s : State) : (grantCredit bs stmin s).cfg = s.cfg := rfl
@[simp] theorem grantCredit_ctrl (bs stmin : Byte) (s : State) : (grantCredit bs stmin s).ctrl = s.ctrl := rfl
@[simp] theorem grantCredit_sess (bs stmin : Byte) (s : State) : (grantCredit bs stmin s).sess = .sendCons := rfl
@[simp] theorem grantCredit_dir (bs stmin : Byte) (s : State) : (grantCredit bs stmin s).dir = s.dir := rfl
@[simp] theorem grantCredit_total (bs stmin : Byte) (s : State) : (grantCredit bs stmin s).total = s.total := rfl
@[simp] theorem grantCredit_cursor (bs stmin : Byte) (s : State) : (grantCredit bs stmin s).cursor = s.cursor := rfl
@[simp] theorem grantCredit_seq (bs stmin : Byte) (s : State) : (grantCredit bs stmin s).seq = s.seq := rfl
@[simp] theorem grantCredit_credit (bs stmin : Byte) (s : State) : (grantCredit bs stmin s).credit = bs := rfl
@[simp] theorem grantCredit_creditInf (bs stmin : Byte) (s : State) : (grantCredit bs stmin s).creditInf = creditInfOf bs := rfl
@[simp] theorem grantCredit_bs (bs stmin : Byte) (s : State) : (grantCredit bs stmin s).bs = bs := rfl
@[simp] theorem grantCredit_stmin (bs stmin : Byte) (s : State) : (grantCredit bs stmin s).stmin = stmin := rfl
@[simp] theorem grantCredit_cap (bs stmin : Byte) (s : State) : (grantCredit bs stmin s).cap = s.cap := rfl
@[simp] theorem grantCredit_resultLen (bs stmin : Byte) (s : State) : (grantCredit bs stmin s).resultLen = s.resultLen := rfl
@[simp] theorem grantCredit_service (bs stmin : Byte) (s : State) : (grantCredit bs stmin s).service = s.service := rfl
@[simp] theorem grantCredit_pid (bs stmin : Byte) (s : State) : (grantCredit bs stmin s).pid = s.pid := rfl
@[simp] theorem grantCredit_status (bs stmin : Byte) (s : State) : (grantCredit bs stmin s).status = s.status := rfl
@[simp] theorem grantCredit_failCode (bs stmin : Byte) (s : State) : (grantCredit bs stmin s).failCode = s.failCode := rfl
@[simp] theorem grantCredit_txf (bs stmin : Byte) (s : State) : (grantCredit bs stmin s).txf = s.txf := rfl
@[simp] theorem grantCredit_written (bs stmin : Byte) (s : State) : (grantCredit bs stmin s).written = { s.written with bs := true, stmin := true, credit := true, creditInf := true } := rfl
@[simp] theorem grantCredit_pbuf (bs stmin : Byte) (s : State) : (grantCredit bs stmin s).pbuf = s.pbuf := rfl
@[simp] theorem grantCredit_rpm (bs stmin : Byte) (s : State) : (grantCredit bs stmin s).rpm = s.rpm := rfl
@[simp] theorem grantCredit_speed (bs stmin : Byte) (s : State) : (grantCredit bs stmin s).speed = s.speed := rfl
@[simp] theorem grantCredit_host (bs stmin : Byte) (s : State) : (grantCredit bs stmin s).host = s.host := rfl
@[simp] theorem grantCredit_link (bs stmin : Byte) (s : State) : (grantCredit bs stmin s).link = s.link := rfl
@[simp] theorem grantCredit_txAnswers (bs stmin : Byte) (s : State) : (grantCredit bs stmin s).txAnswers = s.txAnswers := rfl
@[simp] theorem grantCredit_timer (bs stmin : Byte) (s : State) : (grantCredit bs stmin s).timer = s.timer := rfl
@[simp] theorem grantCredit_agenda (bs stmin : Byte) (s : State) : (grantCredit bs stmin s).agenda = s.agenda := rfl
@[simp] theorem grantCredit_now (bs stmin : Byte) (s : State) : (grantCredit bs stmin s).now = s.now := rfl
@[simp] theorem grantCredit_rxReqAt (bs stmin : Byte) (s : State) : (grantCredit bs stmin s).rxReqAt = s.rxReqAt := rfl
@[simp] theorem grantCredit_sleepDue (bs stmin : Byte) (s : State) : (grantCredit bs stmin s).sleepDue = s.sleepDue := rfl
@[simp] theorem grantCredit_out (bs stmin : Byte) (s : State) : (grantCredit bs stmin s).out = s.out := rfl

/-! ## A received SF -/

@[simp] theorem receivedSf_cfg (len : Len) (s : State) : (receivedSf len s).cfg = s.cfg := rfl
@[simp] theorem receivedSf_ctrl (len : Len) (s : State) : (receivedSf len s).ctrl = s.ctrl := rfl
@[simp] theorem receivedSf_sess (len : Len) (s : State) : (receivedSf len s).sess = s.sess := rfl
@[simp] theorem receivedSf_dir (len : Len) (s : State) : (receivedSf len s).dir = s.dir := rfl
@[simp] theorem receivedSf_total (len : Len) (s : State) : (receivedSf len s).total = len := rfl
@[simp] theorem receivedSf_cursor (len : Len) (s : State) : (receivedSf len s).cursor = len := rfl
@[simp] theorem receivedSf_seq (len : Len) (s : State) : (receivedSf len s).seq = s.seq := rfl
@[simp] theorem receivedSf_credit (len : Len) (s : State) : (receivedSf len s).credit = s.credit := rfl
@[simp] theorem receivedSf_creditInf (len : Len) (s : State) : (receivedSf len s).creditInf = s.creditInf := rfl
@[simp] theorem receivedSf_bs (len : Len) (s : State) : (receivedSf len s).bs = s.bs := rfl
@[simp] theorem receivedSf_stmin (len : Len) (s : State) : (receivedSf len s).stmin = s.stmin := rfl
@[simp] theorem receivedSf_cap (len : Len) (s : State) : (receivedSf len s).cap = s.cap := rfl
@[simp] theorem receivedSf_resultLen (len : Len) (s : State) : (receivedSf len s).resultLen = s.resultLen := rfl
@[simp] theorem receivedSf_service (len : Len) (s : State) : (receivedSf len s).service = s.service := rfl
@[simp] theorem receivedSf_pid (len : Len) (s : State) : (receivedSf len s).pid = s.pid := rfl
@[simp] theorem receivedSf_status (len : Len) (s : State) : (receivedSf len s).status = s.status := rfl
@[simp] theorem receivedSf_failCode (len : Len) (s : State) : (receivedSf len s).failCode = s.failCode := rfl
@[simp] theorem receivedSf_txf (len : Len) (s : State) : (receivedSf len s).txf = s.txf := rfl
@[simp] theorem receivedSf_written (len : Len) (s : State) : (receivedSf len s).written = { s.written with total := true, cursor := true } := rfl
@[simp] theorem receivedSf_pbuf (len : Len) (s : State) : (receivedSf len s).pbuf = s.pbuf := rfl
@[simp] theorem receivedSf_rpm (len : Len) (s : State) : (receivedSf len s).rpm = s.rpm := rfl
@[simp] theorem receivedSf_speed (len : Len) (s : State) : (receivedSf len s).speed = s.speed := rfl
@[simp] theorem receivedSf_host (len : Len) (s : State) : (receivedSf len s).host = s.host := rfl
@[simp] theorem receivedSf_link (len : Len) (s : State) : (receivedSf len s).link = s.link := rfl
@[simp] theorem receivedSf_txAnswers (len : Len) (s : State) : (receivedSf len s).txAnswers = s.txAnswers := rfl
@[simp] theorem receivedSf_timer (len : Len) (s : State) : (receivedSf len s).timer = s.timer := rfl
@[simp] theorem receivedSf_agenda (len : Len) (s : State) : (receivedSf len s).agenda = s.agenda := rfl
@[simp] theorem receivedSf_now (len : Len) (s : State) : (receivedSf len s).now = s.now := rfl
@[simp] theorem receivedSf_rxReqAt (len : Len) (s : State) : (receivedSf len s).rxReqAt = s.rxReqAt := rfl
@[simp] theorem receivedSf_sleepDue (len : Len) (s : State) : (receivedSf len s).sleepDue = s.sleepDue := rfl
@[simp] theorem receivedSf_out (len : Len) (s : State) : (receivedSf len s).out = s.out := rfl

/-! ## A received FF -/

@[simp] theorem beginReceive_cfg (total : Len) (s : State) : (beginReceive total s).cfg = s.cfg := rfl
@[simp] theorem beginReceive_ctrl (total : Len) (s : State) : (beginReceive total s).ctrl = s.ctrl := rfl
@[simp] theorem beginReceive_sess (total : Len) (s : State) : (beginReceive total s).sess = .awaitCons := rfl
@[simp] theorem beginReceive_dir (total : Len) (s : State) : (beginReceive total s).dir = s.dir := rfl
@[simp] theorem beginReceive_total (total : Len) (s : State) : (beginReceive total s).total = total := rfl
@[simp] theorem beginReceive_cursor (total : Len) (s : State) : (beginReceive total s).cursor = 6 := rfl
@[simp] theorem beginReceive_seq (total : Len) (s : State) : (beginReceive total s).seq = 1 := rfl
@[simp] theorem beginReceive_credit (total : Len) (s : State) : (beginReceive total s).credit = s.cfg.rxBs := rfl
@[simp] theorem beginReceive_creditInf (total : Len) (s : State) : (beginReceive total s).creditInf = creditInfOf s.cfg.rxBs := rfl
@[simp] theorem beginReceive_bs (total : Len) (s : State) : (beginReceive total s).bs = s.cfg.rxBs := rfl
@[simp] theorem beginReceive_stmin (total : Len) (s : State) : (beginReceive total s).stmin = s.cfg.rxStmin := rfl
@[simp] theorem beginReceive_cap (total : Len) (s : State) : (beginReceive total s).cap = s.cap := rfl
@[simp] theorem beginReceive_resultLen (total : Len) (s : State) : (beginReceive total s).resultLen = s.resultLen := rfl
@[simp] theorem beginReceive_service (total : Len) (s : State) : (beginReceive total s).service = s.service := rfl
@[simp] theorem beginReceive_pid (total : Len) (s : State) : (beginReceive total s).pid = s.pid := rfl
@[simp] theorem beginReceive_status (total : Len) (s : State) : (beginReceive total s).status = s.status := rfl
@[simp] theorem beginReceive_failCode (total : Len) (s : State) : (beginReceive total s).failCode = s.failCode := rfl
@[simp] theorem beginReceive_txf (total : Len) (s : State) : (beginReceive total s).txf = s.txf := rfl
@[simp] theorem beginReceive_written (total : Len) (s : State) : (beginReceive total s).written = { s.written with total := true, cursor := true, seq := true, bs := true, stmin := true, credit := true, creditInf := true } := rfl
@[simp] theorem beginReceive_pbuf (total : Len) (s : State) : (beginReceive total s).pbuf = s.pbuf := rfl
@[simp] theorem beginReceive_rpm (total : Len) (s : State) : (beginReceive total s).rpm = s.rpm := rfl
@[simp] theorem beginReceive_speed (total : Len) (s : State) : (beginReceive total s).speed = s.speed := rfl
@[simp] theorem beginReceive_host (total : Len) (s : State) : (beginReceive total s).host = s.host := rfl
@[simp] theorem beginReceive_link (total : Len) (s : State) : (beginReceive total s).link = s.link := rfl
@[simp] theorem beginReceive_txAnswers (total : Len) (s : State) : (beginReceive total s).txAnswers = s.txAnswers := rfl
@[simp] theorem beginReceive_timer (total : Len) (s : State) : (beginReceive total s).timer = s.timer := rfl
@[simp] theorem beginReceive_agenda (total : Len) (s : State) : (beginReceive total s).agenda = s.agenda := rfl
@[simp] theorem beginReceive_now (total : Len) (s : State) : (beginReceive total s).now = s.now := rfl
@[simp] theorem beginReceive_rxReqAt (total : Len) (s : State) : (beginReceive total s).rxReqAt = s.rxReqAt := rfl
@[simp] theorem beginReceive_sleepDue (total : Len) (s : State) : (beginReceive total s).sleepDue = s.sleepDue := rfl
@[simp] theorem beginReceive_out (total : Len) (s : State) : (beginReceive total s).out = s.out := rfl

/-! ## An accepted command -/

@[simp] theorem latchCommand_cfg (r : Request) (s : State) : (latchCommand r s).cfg = s.cfg := rfl
@[simp] theorem latchCommand_ctrl (r : Request) (s : State) : (latchCommand r s).ctrl = s.ctrl := rfl
@[simp] theorem latchCommand_sess (r : Request) (s : State) : (latchCommand r s).sess = .idle := rfl
@[simp] theorem latchCommand_dir (r : Request) (s : State) : (latchCommand r s).dir = .receiving := rfl
@[simp] theorem latchCommand_total (r : Request) (s : State) : (latchCommand r s).total = s.total := rfl
@[simp] theorem latchCommand_cursor (r : Request) (s : State) : (latchCommand r s).cursor = s.cursor := rfl
@[simp] theorem latchCommand_seq (r : Request) (s : State) : (latchCommand r s).seq = s.seq := rfl
@[simp] theorem latchCommand_credit (r : Request) (s : State) : (latchCommand r s).credit = s.credit := rfl
@[simp] theorem latchCommand_creditInf (r : Request) (s : State) : (latchCommand r s).creditInf = s.creditInf := rfl
@[simp] theorem latchCommand_bs (r : Request) (s : State) : (latchCommand r s).bs = s.bs := rfl
@[simp] theorem latchCommand_stmin (r : Request) (s : State) : (latchCommand r s).stmin = s.stmin := rfl
@[simp] theorem latchCommand_cap (r : Request) (s : State) : (latchCommand r s).cap = clampCap r.cap := rfl
@[simp] theorem latchCommand_resultLen (r : Request) (s : State) : (latchCommand r s).resultLen = s.resultLen := rfl
@[simp] theorem latchCommand_service (r : Request) (s : State) : (latchCommand r s).service = r.service := rfl
@[simp] theorem latchCommand_pid (r : Request) (s : State) : (latchCommand r s).pid = r.pid := rfl
@[simp] theorem latchCommand_status (r : Request) (s : State) : (latchCommand r s).status = .busy := rfl
@[simp] theorem latchCommand_failCode (r : Request) (s : State) : (latchCommand r s).failCode = s.failCode := rfl
@[simp] theorem latchCommand_txf (r : Request) (s : State) : (latchCommand r s).txf = s.txf := rfl
@[simp] theorem latchCommand_written (r : Request) (s : State) : (latchCommand r s).written = { s.written with service := true, pid := true, cap := true, dir := true } := rfl
@[simp] theorem latchCommand_pbuf (r : Request) (s : State) : (latchCommand r s).pbuf = s.pbuf := rfl
@[simp] theorem latchCommand_rpm (r : Request) (s : State) : (latchCommand r s).rpm = s.rpm := rfl
@[simp] theorem latchCommand_speed (r : Request) (s : State) : (latchCommand r s).speed = s.speed := rfl
@[simp] theorem latchCommand_host (r : Request) (s : State) : (latchCommand r s).host = s.host := rfl
@[simp] theorem latchCommand_link (r : Request) (s : State) : (latchCommand r s).link = s.link := rfl
@[simp] theorem latchCommand_txAnswers (r : Request) (s : State) : (latchCommand r s).txAnswers = s.txAnswers := rfl
@[simp] theorem latchCommand_timer (r : Request) (s : State) : (latchCommand r s).timer = s.timer := rfl
@[simp] theorem latchCommand_agenda (r : Request) (s : State) : (latchCommand r s).agenda = s.agenda := rfl
@[simp] theorem latchCommand_now (r : Request) (s : State) : (latchCommand r s).now = s.now := rfl
@[simp] theorem latchCommand_rxReqAt (r : Request) (s : State) : (latchCommand r s).rxReqAt = s.rxReqAt := rfl
@[simp] theorem latchCommand_sleepDue (r : Request) (s : State) : (latchCommand r s).sleepDue = s.sleepDue := rfl
@[simp] theorem latchCommand_out (r : Request) (s : State) : (latchCommand r s).out = s.out := rfl

/-! ## An accepted request -/

@[simp] theorem latchRequest_cfg (service pid : Byte) (s : State) : (latchRequest service pid s).cfg = s.cfg := rfl
@[simp] theorem latchRequest_ctrl (service pid : Byte) (s : State) : (latchRequest service pid s).ctrl = s.ctrl := rfl
@[simp] theorem latchRequest_sess (service pid : Byte) (s : State) : (latchRequest service pid s).sess = s.sess := rfl
@[simp] theorem latchRequest_dir (service pid : Byte) (s : State) : (latchRequest service pid s).dir = s.dir := rfl
@[simp] theorem latchRequest_total (service pid : Byte) (s : State) : (latchRequest service pid s).total = s.total := rfl
@[simp] theorem latchRequest_cursor (service pid : Byte) (s : State) : (latchRequest service pid s).cursor = s.cursor := rfl
@[simp] theorem latchRequest_seq (service pid : Byte) (s : State) : (latchRequest service pid s).seq = s.seq := rfl
@[simp] theorem latchRequest_credit (service pid : Byte) (s : State) : (latchRequest service pid s).credit = s.credit := rfl
@[simp] theorem latchRequest_creditInf (service pid : Byte) (s : State) : (latchRequest service pid s).creditInf = s.creditInf := rfl
@[simp] theorem latchRequest_bs (service pid : Byte) (s : State) : (latchRequest service pid s).bs = s.bs := rfl
@[simp] theorem latchRequest_stmin (service pid : Byte) (s : State) : (latchRequest service pid s).stmin = s.stmin := rfl
@[simp] theorem latchRequest_cap (service pid : Byte) (s : State) : (latchRequest service pid s).cap = s.cap := rfl
@[simp] theorem latchRequest_resultLen (service pid : Byte) (s : State) : (latchRequest service pid s).resultLen = s.resultLen := rfl
@[simp] theorem latchRequest_service (service pid : Byte) (s : State) : (latchRequest service pid s).service = service := rfl
@[simp] theorem latchRequest_pid (service pid : Byte) (s : State) : (latchRequest service pid s).pid = pid := rfl
@[simp] theorem latchRequest_status (service pid : Byte) (s : State) : (latchRequest service pid s).status = s.status := rfl
@[simp] theorem latchRequest_failCode (service pid : Byte) (s : State) : (latchRequest service pid s).failCode = s.failCode := rfl
@[simp] theorem latchRequest_txf (service pid : Byte) (s : State) : (latchRequest service pid s).txf = s.txf := rfl
@[simp] theorem latchRequest_written (service pid : Byte) (s : State) : (latchRequest service pid s).written = { s.written with service := true, pid := true } := rfl
@[simp] theorem latchRequest_pbuf (service pid : Byte) (s : State) : (latchRequest service pid s).pbuf = s.pbuf := rfl
@[simp] theorem latchRequest_rpm (service pid : Byte) (s : State) : (latchRequest service pid s).rpm = s.rpm := rfl
@[simp] theorem latchRequest_speed (service pid : Byte) (s : State) : (latchRequest service pid s).speed = s.speed := rfl
@[simp] theorem latchRequest_host (service pid : Byte) (s : State) : (latchRequest service pid s).host = s.host := rfl
@[simp] theorem latchRequest_link (service pid : Byte) (s : State) : (latchRequest service pid s).link = s.link := rfl
@[simp] theorem latchRequest_txAnswers (service pid : Byte) (s : State) : (latchRequest service pid s).txAnswers = s.txAnswers := rfl
@[simp] theorem latchRequest_timer (service pid : Byte) (s : State) : (latchRequest service pid s).timer = s.timer := rfl
@[simp] theorem latchRequest_agenda (service pid : Byte) (s : State) : (latchRequest service pid s).agenda = s.agenda := rfl
@[simp] theorem latchRequest_now (service pid : Byte) (s : State) : (latchRequest service pid s).now = s.now := rfl
@[simp] theorem latchRequest_rxReqAt (service pid : Byte) (s : State) : (latchRequest service pid s).rxReqAt = s.rxReqAt := rfl
@[simp] theorem latchRequest_sleepDue (service pid : Byte) (s : State) : (latchRequest service pid s).sleepDue = s.sleepDue := rfl
@[simp] theorem latchRequest_out (service pid : Byte) (s : State) : (latchRequest service pid s).out = s.out := rfl

/-! ## The host's commands -/

@[simp] theorem State.withHost_cfg (rest : List Request) (s : State) : (s.withHost rest).cfg = s.cfg := rfl
@[simp] theorem State.withHost_ctrl (rest : List Request) (s : State) : (s.withHost rest).ctrl = s.ctrl := rfl
@[simp] theorem State.withHost_sess (rest : List Request) (s : State) : (s.withHost rest).sess = s.sess := rfl
@[simp] theorem State.withHost_dir (rest : List Request) (s : State) : (s.withHost rest).dir = s.dir := rfl
@[simp] theorem State.withHost_total (rest : List Request) (s : State) : (s.withHost rest).total = s.total := rfl
@[simp] theorem State.withHost_cursor (rest : List Request) (s : State) : (s.withHost rest).cursor = s.cursor := rfl
@[simp] theorem State.withHost_seq (rest : List Request) (s : State) : (s.withHost rest).seq = s.seq := rfl
@[simp] theorem State.withHost_credit (rest : List Request) (s : State) : (s.withHost rest).credit = s.credit := rfl
@[simp] theorem State.withHost_creditInf (rest : List Request) (s : State) : (s.withHost rest).creditInf = s.creditInf := rfl
@[simp] theorem State.withHost_bs (rest : List Request) (s : State) : (s.withHost rest).bs = s.bs := rfl
@[simp] theorem State.withHost_stmin (rest : List Request) (s : State) : (s.withHost rest).stmin = s.stmin := rfl
@[simp] theorem State.withHost_cap (rest : List Request) (s : State) : (s.withHost rest).cap = s.cap := rfl
@[simp] theorem State.withHost_resultLen (rest : List Request) (s : State) : (s.withHost rest).resultLen = s.resultLen := rfl
@[simp] theorem State.withHost_service (rest : List Request) (s : State) : (s.withHost rest).service = s.service := rfl
@[simp] theorem State.withHost_pid (rest : List Request) (s : State) : (s.withHost rest).pid = s.pid := rfl
@[simp] theorem State.withHost_status (rest : List Request) (s : State) : (s.withHost rest).status = s.status := rfl
@[simp] theorem State.withHost_failCode (rest : List Request) (s : State) : (s.withHost rest).failCode = s.failCode := rfl
@[simp] theorem State.withHost_txf (rest : List Request) (s : State) : (s.withHost rest).txf = s.txf := rfl
@[simp] theorem State.withHost_written (rest : List Request) (s : State) : (s.withHost rest).written = s.written := rfl
@[simp] theorem State.withHost_pbuf (rest : List Request) (s : State) : (s.withHost rest).pbuf = s.pbuf := rfl
@[simp] theorem State.withHost_rpm (rest : List Request) (s : State) : (s.withHost rest).rpm = s.rpm := rfl
@[simp] theorem State.withHost_speed (rest : List Request) (s : State) : (s.withHost rest).speed = s.speed := rfl
@[simp] theorem State.withHost_host (rest : List Request) (s : State) : (s.withHost rest).host = rest := rfl
@[simp] theorem State.withHost_link (rest : List Request) (s : State) : (s.withHost rest).link = s.link := rfl
@[simp] theorem State.withHost_txAnswers (rest : List Request) (s : State) : (s.withHost rest).txAnswers = s.txAnswers := rfl
@[simp] theorem State.withHost_timer (rest : List Request) (s : State) : (s.withHost rest).timer = s.timer := rfl
@[simp] theorem State.withHost_agenda (rest : List Request) (s : State) : (s.withHost rest).agenda = s.agenda := rfl
@[simp] theorem State.withHost_now (rest : List Request) (s : State) : (s.withHost rest).now = s.now := rfl
@[simp] theorem State.withHost_rxReqAt (rest : List Request) (s : State) : (s.withHost rest).rxReqAt = s.rxReqAt := rfl
@[simp] theorem State.withHost_sleepDue (rest : List Request) (s : State) : (s.withHost rest).sleepDue = s.sleepDue := rfl
@[simp] theorem State.withHost_out (rest : List Request) (s : State) : (s.withHost rest).out = s.out := rfl

/-! ## The link's answers to a `Tx` -/

@[simp] theorem State.withTxAnswers_cfg (rest : List TxAnswer) (delay : Nat) (s : State) : (s.withTxAnswers rest delay).cfg = s.cfg := rfl
@[simp] theorem State.withTxAnswers_ctrl (rest : List TxAnswer) (delay : Nat) (s : State) : (s.withTxAnswers rest delay).ctrl = s.ctrl := rfl
@[simp] theorem State.withTxAnswers_sess (rest : List TxAnswer) (delay : Nat) (s : State) : (s.withTxAnswers rest delay).sess = s.sess := rfl
@[simp] theorem State.withTxAnswers_dir (rest : List TxAnswer) (delay : Nat) (s : State) : (s.withTxAnswers rest delay).dir = s.dir := rfl
@[simp] theorem State.withTxAnswers_total (rest : List TxAnswer) (delay : Nat) (s : State) : (s.withTxAnswers rest delay).total = s.total := rfl
@[simp] theorem State.withTxAnswers_cursor (rest : List TxAnswer) (delay : Nat) (s : State) : (s.withTxAnswers rest delay).cursor = s.cursor := rfl
@[simp] theorem State.withTxAnswers_seq (rest : List TxAnswer) (delay : Nat) (s : State) : (s.withTxAnswers rest delay).seq = s.seq := rfl
@[simp] theorem State.withTxAnswers_credit (rest : List TxAnswer) (delay : Nat) (s : State) : (s.withTxAnswers rest delay).credit = s.credit := rfl
@[simp] theorem State.withTxAnswers_creditInf (rest : List TxAnswer) (delay : Nat) (s : State) : (s.withTxAnswers rest delay).creditInf = s.creditInf := rfl
@[simp] theorem State.withTxAnswers_bs (rest : List TxAnswer) (delay : Nat) (s : State) : (s.withTxAnswers rest delay).bs = s.bs := rfl
@[simp] theorem State.withTxAnswers_stmin (rest : List TxAnswer) (delay : Nat) (s : State) : (s.withTxAnswers rest delay).stmin = s.stmin := rfl
@[simp] theorem State.withTxAnswers_cap (rest : List TxAnswer) (delay : Nat) (s : State) : (s.withTxAnswers rest delay).cap = s.cap := rfl
@[simp] theorem State.withTxAnswers_resultLen (rest : List TxAnswer) (delay : Nat) (s : State) : (s.withTxAnswers rest delay).resultLen = s.resultLen := rfl
@[simp] theorem State.withTxAnswers_service (rest : List TxAnswer) (delay : Nat) (s : State) : (s.withTxAnswers rest delay).service = s.service := rfl
@[simp] theorem State.withTxAnswers_pid (rest : List TxAnswer) (delay : Nat) (s : State) : (s.withTxAnswers rest delay).pid = s.pid := rfl
@[simp] theorem State.withTxAnswers_status (rest : List TxAnswer) (delay : Nat) (s : State) : (s.withTxAnswers rest delay).status = s.status := rfl
@[simp] theorem State.withTxAnswers_failCode (rest : List TxAnswer) (delay : Nat) (s : State) : (s.withTxAnswers rest delay).failCode = s.failCode := rfl
@[simp] theorem State.withTxAnswers_txf (rest : List TxAnswer) (delay : Nat) (s : State) : (s.withTxAnswers rest delay).txf = s.txf := rfl
@[simp] theorem State.withTxAnswers_written (rest : List TxAnswer) (delay : Nat) (s : State) : (s.withTxAnswers rest delay).written = s.written := rfl
@[simp] theorem State.withTxAnswers_pbuf (rest : List TxAnswer) (delay : Nat) (s : State) : (s.withTxAnswers rest delay).pbuf = s.pbuf := rfl
@[simp] theorem State.withTxAnswers_rpm (rest : List TxAnswer) (delay : Nat) (s : State) : (s.withTxAnswers rest delay).rpm = s.rpm := rfl
@[simp] theorem State.withTxAnswers_speed (rest : List TxAnswer) (delay : Nat) (s : State) : (s.withTxAnswers rest delay).speed = s.speed := rfl
@[simp] theorem State.withTxAnswers_host (rest : List TxAnswer) (delay : Nat) (s : State) : (s.withTxAnswers rest delay).host = s.host := rfl
@[simp] theorem State.withTxAnswers_link (rest : List TxAnswer) (delay : Nat) (s : State) : (s.withTxAnswers rest delay).link = s.link := rfl
@[simp] theorem State.withTxAnswers_txAnswers (rest : List TxAnswer) (delay : Nat) (s : State) : (s.withTxAnswers rest delay).txAnswers = rest := rfl
@[simp] theorem State.withTxAnswers_timer (rest : List TxAnswer) (delay : Nat) (s : State) : (s.withTxAnswers rest delay).timer = s.timer := rfl
@[simp] theorem State.withTxAnswers_agenda (rest : List TxAnswer) (delay : Nat) (s : State) : (s.withTxAnswers rest delay).agenda = s.agenda := rfl
@[simp] theorem State.withTxAnswers_now (rest : List TxAnswer) (delay : Nat) (s : State) : (s.withTxAnswers rest delay).now = s.now + delay := rfl
@[simp] theorem State.withTxAnswers_rxReqAt (rest : List TxAnswer) (delay : Nat) (s : State) : (s.withTxAnswers rest delay).rxReqAt = s.rxReqAt := rfl
@[simp] theorem State.withTxAnswers_sleepDue (rest : List TxAnswer) (delay : Nat) (s : State) : (s.withTxAnswers rest delay).sleepDue = s.sleepDue := rfl
@[simp] theorem State.withTxAnswers_out (rest : List TxAnswer) (delay : Nat) (s : State) : (s.withTxAnswers rest delay).out = s.out := rfl

/-! ## The link's answers to an `RxReq` -/

@[simp] theorem State.withLink_cfg (rest : List LinkAnswer) (delay : Nat) (s : State) : (s.withLink rest delay).cfg = s.cfg := rfl
@[simp] theorem State.withLink_ctrl (rest : List LinkAnswer) (delay : Nat) (s : State) : (s.withLink rest delay).ctrl = s.ctrl := rfl
@[simp] theorem State.withLink_sess (rest : List LinkAnswer) (delay : Nat) (s : State) : (s.withLink rest delay).sess = s.sess := rfl
@[simp] theorem State.withLink_dir (rest : List LinkAnswer) (delay : Nat) (s : State) : (s.withLink rest delay).dir = s.dir := rfl
@[simp] theorem State.withLink_total (rest : List LinkAnswer) (delay : Nat) (s : State) : (s.withLink rest delay).total = s.total := rfl
@[simp] theorem State.withLink_cursor (rest : List LinkAnswer) (delay : Nat) (s : State) : (s.withLink rest delay).cursor = s.cursor := rfl
@[simp] theorem State.withLink_seq (rest : List LinkAnswer) (delay : Nat) (s : State) : (s.withLink rest delay).seq = s.seq := rfl
@[simp] theorem State.withLink_credit (rest : List LinkAnswer) (delay : Nat) (s : State) : (s.withLink rest delay).credit = s.credit := rfl
@[simp] theorem State.withLink_creditInf (rest : List LinkAnswer) (delay : Nat) (s : State) : (s.withLink rest delay).creditInf = s.creditInf := rfl
@[simp] theorem State.withLink_bs (rest : List LinkAnswer) (delay : Nat) (s : State) : (s.withLink rest delay).bs = s.bs := rfl
@[simp] theorem State.withLink_stmin (rest : List LinkAnswer) (delay : Nat) (s : State) : (s.withLink rest delay).stmin = s.stmin := rfl
@[simp] theorem State.withLink_cap (rest : List LinkAnswer) (delay : Nat) (s : State) : (s.withLink rest delay).cap = s.cap := rfl
@[simp] theorem State.withLink_resultLen (rest : List LinkAnswer) (delay : Nat) (s : State) : (s.withLink rest delay).resultLen = s.resultLen := rfl
@[simp] theorem State.withLink_service (rest : List LinkAnswer) (delay : Nat) (s : State) : (s.withLink rest delay).service = s.service := rfl
@[simp] theorem State.withLink_pid (rest : List LinkAnswer) (delay : Nat) (s : State) : (s.withLink rest delay).pid = s.pid := rfl
@[simp] theorem State.withLink_status (rest : List LinkAnswer) (delay : Nat) (s : State) : (s.withLink rest delay).status = s.status := rfl
@[simp] theorem State.withLink_failCode (rest : List LinkAnswer) (delay : Nat) (s : State) : (s.withLink rest delay).failCode = s.failCode := rfl
@[simp] theorem State.withLink_txf (rest : List LinkAnswer) (delay : Nat) (s : State) : (s.withLink rest delay).txf = s.txf := rfl
@[simp] theorem State.withLink_written (rest : List LinkAnswer) (delay : Nat) (s : State) : (s.withLink rest delay).written = s.written := rfl
@[simp] theorem State.withLink_pbuf (rest : List LinkAnswer) (delay : Nat) (s : State) : (s.withLink rest delay).pbuf = s.pbuf := rfl
@[simp] theorem State.withLink_rpm (rest : List LinkAnswer) (delay : Nat) (s : State) : (s.withLink rest delay).rpm = s.rpm := rfl
@[simp] theorem State.withLink_speed (rest : List LinkAnswer) (delay : Nat) (s : State) : (s.withLink rest delay).speed = s.speed := rfl
@[simp] theorem State.withLink_host (rest : List LinkAnswer) (delay : Nat) (s : State) : (s.withLink rest delay).host = s.host := rfl
@[simp] theorem State.withLink_link (rest : List LinkAnswer) (delay : Nat) (s : State) : (s.withLink rest delay).link = rest := rfl
@[simp] theorem State.withLink_txAnswers (rest : List LinkAnswer) (delay : Nat) (s : State) : (s.withLink rest delay).txAnswers = s.txAnswers := rfl
@[simp] theorem State.withLink_timer (rest : List LinkAnswer) (delay : Nat) (s : State) : (s.withLink rest delay).timer = s.timer := rfl
@[simp] theorem State.withLink_agenda (rest : List LinkAnswer) (delay : Nat) (s : State) : (s.withLink rest delay).agenda = s.agenda := rfl
@[simp] theorem State.withLink_now (rest : List LinkAnswer) (delay : Nat) (s : State) : (s.withLink rest delay).now = s.now + delay := rfl
@[simp] theorem State.withLink_rxReqAt (rest : List LinkAnswer) (delay : Nat) (s : State) : (s.withLink rest delay).rxReqAt = s.rxReqAt := rfl
@[simp] theorem State.withLink_sleepDue (rest : List LinkAnswer) (delay : Nat) (s : State) : (s.withLink rest delay).sleepDue = s.sleepDue := rfl
@[simp] theorem State.withLink_out (rest : List LinkAnswer) (delay : Nat) (s : State) : (s.withLink rest delay).out = s.out := rfl

/-! ## The timer's answers -/

@[simp] theorem State.withTimer_cfg (rest : List Nat) (delay : Nat) (s : State) : (s.withTimer rest delay).cfg = s.cfg := rfl
@[simp] theorem State.withTimer_ctrl (rest : List Nat) (delay : Nat) (s : State) : (s.withTimer rest delay).ctrl = s.ctrl := rfl
@[simp] theorem State.withTimer_sess (rest : List Nat) (delay : Nat) (s : State) : (s.withTimer rest delay).sess = s.sess := rfl
@[simp] theorem State.withTimer_dir (rest : List Nat) (delay : Nat) (s : State) : (s.withTimer rest delay).dir = s.dir := rfl
@[simp] theorem State.withTimer_total (rest : List Nat) (delay : Nat) (s : State) : (s.withTimer rest delay).total = s.total := rfl
@[simp] theorem State.withTimer_cursor (rest : List Nat) (delay : Nat) (s : State) : (s.withTimer rest delay).cursor = s.cursor := rfl
@[simp] theorem State.withTimer_seq (rest : List Nat) (delay : Nat) (s : State) : (s.withTimer rest delay).seq = s.seq := rfl
@[simp] theorem State.withTimer_credit (rest : List Nat) (delay : Nat) (s : State) : (s.withTimer rest delay).credit = s.credit := rfl
@[simp] theorem State.withTimer_creditInf (rest : List Nat) (delay : Nat) (s : State) : (s.withTimer rest delay).creditInf = s.creditInf := rfl
@[simp] theorem State.withTimer_bs (rest : List Nat) (delay : Nat) (s : State) : (s.withTimer rest delay).bs = s.bs := rfl
@[simp] theorem State.withTimer_stmin (rest : List Nat) (delay : Nat) (s : State) : (s.withTimer rest delay).stmin = s.stmin := rfl
@[simp] theorem State.withTimer_cap (rest : List Nat) (delay : Nat) (s : State) : (s.withTimer rest delay).cap = s.cap := rfl
@[simp] theorem State.withTimer_resultLen (rest : List Nat) (delay : Nat) (s : State) : (s.withTimer rest delay).resultLen = s.resultLen := rfl
@[simp] theorem State.withTimer_service (rest : List Nat) (delay : Nat) (s : State) : (s.withTimer rest delay).service = s.service := rfl
@[simp] theorem State.withTimer_pid (rest : List Nat) (delay : Nat) (s : State) : (s.withTimer rest delay).pid = s.pid := rfl
@[simp] theorem State.withTimer_status (rest : List Nat) (delay : Nat) (s : State) : (s.withTimer rest delay).status = s.status := rfl
@[simp] theorem State.withTimer_failCode (rest : List Nat) (delay : Nat) (s : State) : (s.withTimer rest delay).failCode = s.failCode := rfl
@[simp] theorem State.withTimer_txf (rest : List Nat) (delay : Nat) (s : State) : (s.withTimer rest delay).txf = s.txf := rfl
@[simp] theorem State.withTimer_written (rest : List Nat) (delay : Nat) (s : State) : (s.withTimer rest delay).written = s.written := rfl
@[simp] theorem State.withTimer_pbuf (rest : List Nat) (delay : Nat) (s : State) : (s.withTimer rest delay).pbuf = s.pbuf := rfl
@[simp] theorem State.withTimer_rpm (rest : List Nat) (delay : Nat) (s : State) : (s.withTimer rest delay).rpm = s.rpm := rfl
@[simp] theorem State.withTimer_speed (rest : List Nat) (delay : Nat) (s : State) : (s.withTimer rest delay).speed = s.speed := rfl
@[simp] theorem State.withTimer_host (rest : List Nat) (delay : Nat) (s : State) : (s.withTimer rest delay).host = s.host := rfl
@[simp] theorem State.withTimer_link (rest : List Nat) (delay : Nat) (s : State) : (s.withTimer rest delay).link = s.link := rfl
@[simp] theorem State.withTimer_txAnswers (rest : List Nat) (delay : Nat) (s : State) : (s.withTimer rest delay).txAnswers = s.txAnswers := rfl
@[simp] theorem State.withTimer_timer (rest : List Nat) (delay : Nat) (s : State) : (s.withTimer rest delay).timer = rest := rfl
@[simp] theorem State.withTimer_agenda (rest : List Nat) (delay : Nat) (s : State) : (s.withTimer rest delay).agenda = s.agenda := rfl
@[simp] theorem State.withTimer_now (rest : List Nat) (delay : Nat) (s : State) : (s.withTimer rest delay).now = s.now + delay := rfl
@[simp] theorem State.withTimer_rxReqAt (rest : List Nat) (delay : Nat) (s : State) : (s.withTimer rest delay).rxReqAt = s.rxReqAt := rfl
@[simp] theorem State.withTimer_sleepDue (rest : List Nat) (delay : Nat) (s : State) : (s.withTimer rest delay).sleepDue = s.sleepDue := rfl
@[simp] theorem State.withTimer_out (rest : List Nat) (delay : Nat) (s : State) : (s.withTimer rest delay).out = s.out := rfl

/-! ## The agenda -/

@[simp] theorem State.withAgenda_cfg (rest : List Turn) (s : State) : (s.withAgenda rest).cfg = s.cfg := rfl
@[simp] theorem State.withAgenda_ctrl (rest : List Turn) (s : State) : (s.withAgenda rest).ctrl = s.ctrl := rfl
@[simp] theorem State.withAgenda_sess (rest : List Turn) (s : State) : (s.withAgenda rest).sess = s.sess := rfl
@[simp] theorem State.withAgenda_dir (rest : List Turn) (s : State) : (s.withAgenda rest).dir = s.dir := rfl
@[simp] theorem State.withAgenda_total (rest : List Turn) (s : State) : (s.withAgenda rest).total = s.total := rfl
@[simp] theorem State.withAgenda_cursor (rest : List Turn) (s : State) : (s.withAgenda rest).cursor = s.cursor := rfl
@[simp] theorem State.withAgenda_seq (rest : List Turn) (s : State) : (s.withAgenda rest).seq = s.seq := rfl
@[simp] theorem State.withAgenda_credit (rest : List Turn) (s : State) : (s.withAgenda rest).credit = s.credit := rfl
@[simp] theorem State.withAgenda_creditInf (rest : List Turn) (s : State) : (s.withAgenda rest).creditInf = s.creditInf := rfl
@[simp] theorem State.withAgenda_bs (rest : List Turn) (s : State) : (s.withAgenda rest).bs = s.bs := rfl
@[simp] theorem State.withAgenda_stmin (rest : List Turn) (s : State) : (s.withAgenda rest).stmin = s.stmin := rfl
@[simp] theorem State.withAgenda_cap (rest : List Turn) (s : State) : (s.withAgenda rest).cap = s.cap := rfl
@[simp] theorem State.withAgenda_resultLen (rest : List Turn) (s : State) : (s.withAgenda rest).resultLen = s.resultLen := rfl
@[simp] theorem State.withAgenda_service (rest : List Turn) (s : State) : (s.withAgenda rest).service = s.service := rfl
@[simp] theorem State.withAgenda_pid (rest : List Turn) (s : State) : (s.withAgenda rest).pid = s.pid := rfl
@[simp] theorem State.withAgenda_status (rest : List Turn) (s : State) : (s.withAgenda rest).status = s.status := rfl
@[simp] theorem State.withAgenda_failCode (rest : List Turn) (s : State) : (s.withAgenda rest).failCode = s.failCode := rfl
@[simp] theorem State.withAgenda_txf (rest : List Turn) (s : State) : (s.withAgenda rest).txf = s.txf := rfl
@[simp] theorem State.withAgenda_written (rest : List Turn) (s : State) : (s.withAgenda rest).written = s.written := rfl
@[simp] theorem State.withAgenda_pbuf (rest : List Turn) (s : State) : (s.withAgenda rest).pbuf = s.pbuf := rfl
@[simp] theorem State.withAgenda_rpm (rest : List Turn) (s : State) : (s.withAgenda rest).rpm = s.rpm := rfl
@[simp] theorem State.withAgenda_speed (rest : List Turn) (s : State) : (s.withAgenda rest).speed = s.speed := rfl
@[simp] theorem State.withAgenda_host (rest : List Turn) (s : State) : (s.withAgenda rest).host = s.host := rfl
@[simp] theorem State.withAgenda_link (rest : List Turn) (s : State) : (s.withAgenda rest).link = s.link := rfl
@[simp] theorem State.withAgenda_txAnswers (rest : List Turn) (s : State) : (s.withAgenda rest).txAnswers = s.txAnswers := rfl
@[simp] theorem State.withAgenda_timer (rest : List Turn) (s : State) : (s.withAgenda rest).timer = s.timer := rfl
@[simp] theorem State.withAgenda_agenda (rest : List Turn) (s : State) : (s.withAgenda rest).agenda = rest := rfl
@[simp] theorem State.withAgenda_now (rest : List Turn) (s : State) : (s.withAgenda rest).now = s.now := rfl
@[simp] theorem State.withAgenda_rxReqAt (rest : List Turn) (s : State) : (s.withAgenda rest).rxReqAt = s.rxReqAt := rfl
@[simp] theorem State.withAgenda_sleepDue (rest : List Turn) (s : State) : (s.withAgenda rest).sleepDue = s.sleepDue := rfl
@[simp] theorem State.withAgenda_out (rest : List Turn) (s : State) : (s.withAgenda rest).out = s.out := rfl

/-! ## The data source -/

@[simp] theorem dataWrite_cfg (rpm : BitVec 16) (speed : Byte) (s : State) : (dataWrite rpm speed s).cfg = s.cfg := rfl
@[simp] theorem dataWrite_ctrl (rpm : BitVec 16) (speed : Byte) (s : State) : (dataWrite rpm speed s).ctrl = s.ctrl := rfl
@[simp] theorem dataWrite_sess (rpm : BitVec 16) (speed : Byte) (s : State) : (dataWrite rpm speed s).sess = s.sess := rfl
@[simp] theorem dataWrite_dir (rpm : BitVec 16) (speed : Byte) (s : State) : (dataWrite rpm speed s).dir = s.dir := rfl
@[simp] theorem dataWrite_total (rpm : BitVec 16) (speed : Byte) (s : State) : (dataWrite rpm speed s).total = s.total := rfl
@[simp] theorem dataWrite_cursor (rpm : BitVec 16) (speed : Byte) (s : State) : (dataWrite rpm speed s).cursor = s.cursor := rfl
@[simp] theorem dataWrite_seq (rpm : BitVec 16) (speed : Byte) (s : State) : (dataWrite rpm speed s).seq = s.seq := rfl
@[simp] theorem dataWrite_credit (rpm : BitVec 16) (speed : Byte) (s : State) : (dataWrite rpm speed s).credit = s.credit := rfl
@[simp] theorem dataWrite_creditInf (rpm : BitVec 16) (speed : Byte) (s : State) : (dataWrite rpm speed s).creditInf = s.creditInf := rfl
@[simp] theorem dataWrite_bs (rpm : BitVec 16) (speed : Byte) (s : State) : (dataWrite rpm speed s).bs = s.bs := rfl
@[simp] theorem dataWrite_stmin (rpm : BitVec 16) (speed : Byte) (s : State) : (dataWrite rpm speed s).stmin = s.stmin := rfl
@[simp] theorem dataWrite_cap (rpm : BitVec 16) (speed : Byte) (s : State) : (dataWrite rpm speed s).cap = s.cap := rfl
@[simp] theorem dataWrite_resultLen (rpm : BitVec 16) (speed : Byte) (s : State) : (dataWrite rpm speed s).resultLen = s.resultLen := rfl
@[simp] theorem dataWrite_service (rpm : BitVec 16) (speed : Byte) (s : State) : (dataWrite rpm speed s).service = s.service := rfl
@[simp] theorem dataWrite_pid (rpm : BitVec 16) (speed : Byte) (s : State) : (dataWrite rpm speed s).pid = s.pid := rfl
@[simp] theorem dataWrite_status (rpm : BitVec 16) (speed : Byte) (s : State) : (dataWrite rpm speed s).status = s.status := rfl
@[simp] theorem dataWrite_failCode (rpm : BitVec 16) (speed : Byte) (s : State) : (dataWrite rpm speed s).failCode = s.failCode := rfl
@[simp] theorem dataWrite_txf (rpm : BitVec 16) (speed : Byte) (s : State) : (dataWrite rpm speed s).txf = s.txf := rfl
@[simp] theorem dataWrite_written (rpm : BitVec 16) (speed : Byte) (s : State) : (dataWrite rpm speed s).written = s.written := rfl
@[simp] theorem dataWrite_pbuf (rpm : BitVec 16) (speed : Byte) (s : State) : (dataWrite rpm speed s).pbuf = s.pbuf := rfl
@[simp] theorem dataWrite_rpm (rpm : BitVec 16) (speed : Byte) (s : State) : (dataWrite rpm speed s).rpm = rpm := rfl
@[simp] theorem dataWrite_speed (rpm : BitVec 16) (speed : Byte) (s : State) : (dataWrite rpm speed s).speed = speed := rfl
@[simp] theorem dataWrite_host (rpm : BitVec 16) (speed : Byte) (s : State) : (dataWrite rpm speed s).host = s.host := rfl
@[simp] theorem dataWrite_link (rpm : BitVec 16) (speed : Byte) (s : State) : (dataWrite rpm speed s).link = s.link := rfl
@[simp] theorem dataWrite_txAnswers (rpm : BitVec 16) (speed : Byte) (s : State) : (dataWrite rpm speed s).txAnswers = s.txAnswers := rfl
@[simp] theorem dataWrite_timer (rpm : BitVec 16) (speed : Byte) (s : State) : (dataWrite rpm speed s).timer = s.timer := rfl
@[simp] theorem dataWrite_agenda (rpm : BitVec 16) (speed : Byte) (s : State) : (dataWrite rpm speed s).agenda = s.agenda := rfl
@[simp] theorem dataWrite_now (rpm : BitVec 16) (speed : Byte) (s : State) : (dataWrite rpm speed s).now = s.now := rfl
@[simp] theorem dataWrite_rxReqAt (rpm : BitVec 16) (speed : Byte) (s : State) : (dataWrite rpm speed s).rxReqAt = s.rxReqAt := rfl
@[simp] theorem dataWrite_sleepDue (rpm : BitVec 16) (speed : Byte) (s : State) : (dataWrite rpm speed s).sleepDue = s.sleepDue := rfl
@[simp] theorem dataWrite_out (rpm : BitVec 16) (speed : Byte) (s : State) : (dataWrite rpm speed s).out = s.out := rfl

end Sys2Proof.Machine
end

