-- ==== Sys2Proof/Laws/Ops.lean ====
section
/-! SUPPORT. What each shared operation can do: when it goes on with the rest of a rule, and with what. -/

namespace Sys2Proof.Machine

theorem State.store_eq (s : State) (a : Nat) (bytes : List Byte) (k : State → Result)
    (h : a + bytes.length ≤ bufCap) : s.store a bytes k = k (s.writePbuf a bytes) :=
  if_pos h

/-- A store that answers a next state fits in PBUF. -/
theorem State.store_next {s t : State} {a : Nat} {bytes : List Byte} {k : State → Result}
    (h : s.store a bytes k = .next t) :
    a + bytes.length ≤ bufCap ∧ k (s.writePbuf a bytes) = .next t := by
  unfold State.store at h
  split at h
  · exact ⟨‹_›, h⟩
  · cases h

theorem State.load_eq (s : State) (a n : Nat) (k : List Byte → Result) (bytes : List Byte) (h : a + n ≤ bufCap)
    (hr : memReadList s.pbuf a n = some bytes) : s.load a n k = k bytes := by
  simp only [State.load, if_pos h, hr]

/-- A load that answers a next state found every byte. -/
theorem State.load_next {s t : State} {a n : Nat} {k : List Byte → Result} (h : s.load a n k = .next t) :
    ∃ bytes, memReadList s.pbuf a n = some bytes ∧ k bytes = .next t := by
  unfold State.load at h
  split at h
  · split at h
    · exact ⟨_, ‹_›, h⟩
    · cases h
  · cases h

theorem State.withChunk_eq (s : State) (k : Nat → Result) (h : s.cursor.toNat ≤ s.total.toNat) :
    s.withChunk k = k (min 7 (s.total.toNat - s.cursor.toNat)) :=
  if_pos h

theorem State.withChunk_next {s t : State} {k : Nat → Result} (h : s.withChunk k = .next t) :
    s.cursor.toNat ≤ s.total.toNat ∧ k (min 7 (s.total.toNat - s.cursor.toNat)) = .next t := by
  unfold State.withChunk at h
  split at h
  · exact ⟨‹_›, h⟩
  · cases h

theorem State.creditExhausted_eq (s : State) : s.creditExhausted = true ↔ s.creditInf = false ∧ s.credit = 0 := by
  simp [State.creditExhausted]

theorem State.spendCredit_inf (s : State) (k : State → Result) (h : s.creditInf = true) : s.spendCredit k = k s :=
  if_pos h

theorem State.spendCredit_finite (s : State) (k : State → Result) (h : s.creditInf = false) (hc : s.credit ≠ 0) :
    s.spendCredit k = k (setCredit (s.credit - 1) s) := by
  simp only [State.spendCredit, h, if_neg hc]; rfl

/-- Spending a credit leaves an unlimited one alone and takes one from a finite one. -/
theorem State.spendCredit_next {s t : State} {k : State → Result} (h : s.spendCredit k = .next t) :
    (s.creditInf = true ∧ k s = .next t) ∨
      (s.creditInf = false ∧ s.credit ≠ 0 ∧
        k (setCredit (s.credit - 1) s) = .next t) := by
  unfold State.spendCredit at h
  split at h
  · exact .inl ⟨‹_›, h⟩
  · split at h
    · cases h
    · next hi hc => exact .inr ⟨by simpa using hi, hc, h⟩

theorem transmit_next {at' : Ctrl} {e : Encoded} {s t : State} (h : transmit at' e s = .next t) :
    (∃ d, e = .frame d ∧ t = emitTx at' d s) ∨ (e = .malformedPci ∧ t = raiseFail .malformedPci s) := by
  cases e with
  | frame d => simp only [transmit, Host.Outcome.next.injEq] at h; exact .inl ⟨d, rfl, h.symm⟩
  | malformedPci => simp only [transmit, fail, Host.Outcome.next.injEq] at h; exact .inr ⟨rfl, h.symm⟩
  | outsideContract => cases h

/-- `Continue()` ends the session, awaits a flow control or sleeps (R95). -/
theorem continueSend_cases (s : State) :
    (s.cursor = s.total ∧ continueSend s = raiseDone s) ∨
      (s.cursor ≠ s.total ∧ s.creditExhausted = true ∧
        continueSend s = awaitRx .awaitFc .awaitFlow s) ∨
      (s.cursor ≠ s.total ∧ s.creditExhausted = false ∧ continueSend s = emitSleep (stminToUs s.stmin) s) := by
  unfold continueSend
  split
  · exact .inl ⟨‹_›, rfl⟩
  · split
    · exact .inr (.inl ⟨‹_›, ‹_›, rfl⟩)
    · exact .inr (.inr ⟨‹_›, by simpa using ‹¬ s.creditExhausted = true›, rfl⟩)

/-- The end of R102: the message is complete, an FC is due, or the next CF is awaited. -/
theorem afterChunk_cases (s : State) :
    (s.cursor = s.total ∧ afterChunk s = raiseDone s) ∨
      (s.cursor ≠ s.total ∧ s.creditExhausted = true ∧ afterChunk s = reloadFc s) ∨
      (s.cursor ≠ s.total ∧ s.creditExhausted = false ∧ afterChunk s = emitRxReq s) := by
  unfold afterChunk
  split
  · exact .inl ⟨‹_›, rfl⟩
  · split
    · exact .inr (.inl ⟨‹_›, ‹_›, rfl⟩)
    · exact .inr (.inr ⟨‹_›, by simpa using ‹¬ s.creditExhausted = true›, rfl⟩)

theorem onReceive_listen (f g h : State → Result) {s : State} (hc : s.ctrl = .listen) : onReceive f g h s = f s := by
  simp only [onReceive, hc]

theorem onReceive_rxWait (f g h : State → Result) {s : State} (hc : s.ctrl = .rxWait) : onReceive f g h s = g s := by
  simp only [onReceive, hc]

theorem onReceive_awaitFc (f g h : State → Result) {s : State} (hc : s.ctrl = .awaitFc) : onReceive f g h s = h s := by
  simp only [onReceive, hc]

theorem onState_idle (f g : State → Result) {s : State} (hs : s.sess = .idle) : onState f g s = f s := by
  simp only [onState, hs]

theorem onState_awaitCons (f g : State → Result) {s : State} (hs : s.sess = .awaitCons) : onState f g s = g s := by
  simp only [onState, hs]

/-- The sum in a 12-bit cursor does not wrap as long as it stays below 4096. -/
theorem advance_toNat (cursor : Len) (n : Nat) (h : cursor.toNat + n < 4096) :
    (advance cursor n).toNat = cursor.toNat + n := by
  simp only [advance, BitVec.toNat_add, BitVec.toNat_ofNat]
  omega

end Sys2Proof.Machine
end

