-- ==== Sys2Proof/Tests/Slice0.lean ====
section
/-! SUPPORT. Tests: ill-formed terms that WellFormed refuses, words of every row written out from 30_encoding.md and
spec/opcode_table.json, steps against 95_test_vectors.md, and one witness for the hypotheses of each obligation (named
`witness_<Obligation>…`). Expected values come from the spec. -/

namespace Sys2Proof.Tests

open Sys2Proof Sys2Proof.Machine

/-! ## Helpers -/

/-- The outcome is a next state with the property. -/
def nextHas (r : Result) (p : State → Bool) : Bool :=
  match r with
  | .next t => p t
  | .fault _ => false
  | .refused _ => false

/-- The outcome is the given refusal. -/
def refusedWith (r : Result) (e : Refusal) : Bool :=
  match r with
  | .next _ => false
  | .fault _ => false
  | .refused e' => decide (e' = e)

/-- The outcome is the given fault. -/
def faultsWith (r : Result) (e : Fault) : Bool :=
  match r with
  | .next _ => false
  | .fault e' => decide (e' = e)
  | .refused _ => false

/-- A tester at RX_WAIT that awaits the first frame of its response, with the given capacity. -/
def awaitingResponse (cap : Len) : State :=
  { State.resetFor Config.tester true with
    ctrl := .rxWait, dir := .receiving, cap := cap, status := .busy,
    written := { Written.nothing with cap := true, dir := true, txf := true } }

/-- A tester in the middle of a message: `cursor` bytes copied, the next CF numbered `seq`. -/
def midReceive (total cursor : Len) (seq : Nibble) (bs credit : Byte) : State :=
  { awaitingResponse 4095 with
    cfg := { Config.tester with rxBs := bs }, sess := .awaitCons, total := total, cursor := cursor, seq := seq, bs := bs,
    stmin := 0x0A, credit := credit, creditInf := bs == 0, pbuf := memWriteList [] 0 (List.replicate cursor.toNat 0x11),
    written :=
      { Written.nothing with
        cap := true, dir := true, txf := true, total := true, cursor := true, seq := true, bs := true, stmin := true,
        credit := true, creditInf := true } }

/-- A simulator in the middle of the 20-byte VIN response, 6 bytes sent. -/
def midSend (ctrl : Ctrl) (sess : SessionState) (credit : Byte) (inf : Bool) : State :=
  { State.reset with
    ctrl := ctrl, sess := sess, total := 20, cursor := 6, seq := 1, status := .busy, credit := credit, creditInf := inf,
    bs := credit, stmin := 0x00, service := 0x09, pid := 0x02, txf := ⟨0x7E8, ⟨0, 0, 0, 0, 0, 0, 0, 0⟩⟩,
    pbuf := memWriteList [] 0 ([0x49, 0x02, 0x01] ++ Config.defaultVin.toList),
    written :=
      { Written.nothing with
        dir := true, total := true, cursor := true, seq := true, bs := true, stmin := true, credit := true,
        creditInf := true, service := true, pid := true, txf := true } }

/-- A simulator that awaits a flow control. -/
def awaitingFc : State := midSend .awaitFc .awaitFlow 0 false

/-- A simulator that sleeps before its next CF, with the given credit. -/
def sleeping (credit : Byte) : State := midSend .sleep .sendCons credit false

/-! ## WellFormed refuses -/

theorem test_wf_refuses_sfLen8To15_below : Instr.wf (.sfLen8To15Invalid 7) = false := by decide
theorem test_wf_refuses_sf_empty : Instr.wf (.sf []) = false := by decide
theorem test_wf_refuses_sf_eight : Instr.wf (.sf [1, 2, 3, 4, 5, 6, 7, 8]) = false := by decide
theorem test_wf_refuses_ffShort_eight : Instr.wf (.ffShortInvalid 8) = false := by decide
theorem test_wf_refuses_ff_seven : Instr.wf (.ff 7 ⟨0, 0, 0, 0, 0, 0⟩) = false := by decide
theorem test_wf_refuses_fcRsv4To7 :
    Instr.wf (.fcRsv4To7Invalid 3) = false ∧ Instr.wf (.fcRsv4To7Invalid 8) = false := by decide
theorem test_wf_refuses_fcRsv8To15 : Instr.wf (.fcRsv8To15Invalid 7) = false := by decide
theorem test_wf_refuses_pci4To7 : Instr.wf (.pci4To7Invalid 3) = false ∧ Instr.wf (.pci4To7Invalid 8) = false := by decide
theorem test_wf_refuses_pci8ToF : Instr.wf (.pci8ToFInvalid 7) = false := by decide
theorem test_wf_refuses_long_requests :
    Instr.wf (.obdReqRpm [1, 2, 3, 4, 5, 6]) = false ∧ Instr.wf (.obdReqSpeed [1, 2, 3, 4, 5, 6]) = false ∧
      Instr.wf (.obdReqVin [1, 2, 3, 4, 5, 6]) = false ∧ Instr.wf (.obdReqOther 2 2 [1, 2, 3, 4, 5, 6]) = false := by
  decide
theorem test_wf_refuses_other_supported :
    Instr.wf (.obdReqOther 0x01 0x0C []) = false ∧ Instr.wf (.obdReqOther 0x01 0x0D []) = false ∧
      Instr.wf (.obdReqOther 0x09 0x02 []) = false := by decide

/-! ## A word of every row (R62 to R65, R68, R71, R72; match columns of the table) -/

theorem test_word_sfLen0 : decode .frame (.ofWord 0x00AAAAAAAAAAAAAA) = .sfLen0Invalid := by decide
theorem test_word_sfLen8To15 : decode .request (.ofWord 0x0F010CAAAAAAAAAA) = .sfLen8To15Invalid 15 := by decide
theorem test_word_sf : decode .frame (.ofWord 0x0701020304050607) = .sf [1, 2, 3, 4, 5, 6, 7] := by decide
theorem test_word_ffShort : decode .frame (.ofWord 0x1007AAAAAAAAAAAA) = .ffShortInvalid 7 := by decide
theorem test_word_ff : decode .frame (.ofWord 0x1FFF010203040506) = .ff 4095 ⟨1, 2, 3, 4, 5, 6⟩ := by decide
theorem test_word_ff_smallest : decode .request (.ofWord 0x1008010203040506) = .ff 8 ⟨1, 2, 3, 4, 5, 6⟩ := by decide
theorem test_word_cf : decode .frame (.ofWord 0x2255323530353830) = .cf 2 ⟨0x55, 0x32, 0x35, 0x30, 0x35, 0x38, 0x30⟩ := by
  decide
theorem test_word_fcCts : decode .frame (.ofWord 0x30000AAAAAAAAAAA) = .fcCts 0x00 0x0A := by decide
theorem test_word_fcWait : decode .frame (.ofWord 0x3105F1AAAAAAAAAA) = .fcWait 0x05 0xF1 := by decide
theorem test_word_fcOvf : decode .frame (.ofWord 0x320000AAAAAAAAAA) = .fcOvf 0x00 0x00 := by decide
theorem test_word_fcRsv3 : decode .frame (.ofWord 0x33000AAAAAAAAAAA) = .fcRsv3Invalid := by decide
theorem test_word_fcRsv4To7 : decode .frame (.ofWord 0x37000AAAAAAAAAAA) = .fcRsv4To7Invalid 7 := by decide
theorem test_word_fcRsv8To15 : decode .frame (.ofWord 0x38000AAAAAAAAAAA) = .fcRsv8To15Invalid 8 := by decide
theorem test_word_pci4To7 : decode .response (.ofWord 0x40AAAAAAAAAAAAAA) = .pci4To7Invalid 4 := by decide
theorem test_word_pci8ToF : decode .request (.ofWord 0xF0AAAAAAAAAAAAAA) = .pci8ToFInvalid 15 := by decide
theorem test_word_obdReqRpm : decode .request (.ofWord 0x02010CAAAAAAAAAA) = .obdReqRpm [] := by decide
theorem test_word_obdReqSpeed : decode .request (.ofWord 0x03010D99AAAAAAAA) = .obdReqSpeed [0x99] := by decide
theorem test_word_obdReqVin : decode .request (.ofWord 0x020902AAAAAAAAAA) = .obdReqVin [] := by decide
theorem test_word_obdReqOther : decode .request (.ofWord 0x020142AAAAAAAAAA) = .obdReqOther 0x01 0x42 [] := by decide
theorem test_word_obdReqShort : decode .request (.ofWord 0x01010CAAAAAAAAAA) = .obdReqShort 0x01 := by decide
theorem test_word_obdRspRpm : decode .response (.ofWord 0x04410C0ABCAAAAAA) = .obdRspRpm 0x0ABC := by decide
theorem test_word_obdRspSpeed : decode .response (.ofWord 0x03410D55AAAAAAAA) = .obdRspSpeed 0x55 := by decide
theorem test_word_obdRspVinFf : decode .response (.ofWord 0x10144902014B4D48) = .obdRspVinFf 0x4B 0x4D 0x48 := by decide
theorem test_bytes_rejected : decodeBytes .frame [0x02, 0x01, 0x0C] = .error .notEightBytes := by rfl

/-! ## The other way -/

theorem test_encode_cf : encode 0xAA (.cf 15 ⟨1, 2, 3, 4, 5, 6, 7⟩) = .ofWord 0x2F01020304050607 := by decide
theorem test_encode_ff : encode 0xAA (.ff 0x123 ⟨1, 2, 3, 4, 5, 6⟩) = .ofWord 0x1123010203040506 := by decide
theorem test_encode_request : encode 0xAA (.obdReqVin []) = .ofWord 0x020902AAAAAAAAAA := by decide
theorem test_table_word : decodeTableWord 64 0x04410C0ABC000000 = some (.obdRspRpm 0x0ABC) := by decide

/-! ## Steps of 95_test_vectors.md -/

/-- P1: an RPM request to a simulator with rpm = 0x0ABC. -/
theorem test_step_rpm_request :
    nextHas (step { State.reset with rpm := 0x0ABC, link := [⟨0, .frame 0x7DF (.ofWord 0x02010CAAAAAAAAAA)⟩] })
      (fun t => decide (t.ctrl = .txSf ∧ t.txf = ⟨0x7E8, .ofWord 0x04410C0ABCAAAAAA⟩ ∧ t.service = 0x01 ∧ t.pid = 0x0C ∧
        t.total = 4 ∧ t.cursor = 0)) = true := by decide

/-- P4: a speed request longer than it need be. -/
theorem test_step_speed_request :
    nextHas (exec (.obdReqSpeed [0x99]) { State.reset with speed := 0x55 })
      (fun t => decide (t.ctrl = .txSf ∧ t.txf.d = .ofWord 0x03410D55AAAAAAAA)) = true := by decide

/-- P2: the VIN request's First Frame. -/
theorem test_step_vin_request :
    nextHas (exec (.obdReqVin []) State.reset)
      (fun t => decide (t.ctrl = .txFf ∧ t.total = 20 ∧ t.txf.d = .ofWord 0x10144902014B4D48 ∧
        memRead t.pbuf 19 = some 0x30)) = true := by decide

/-- P4: an unsupported PID. -/
theorem test_step_other_request :
    nextHas (exec (.obdReqOther 0x01 0x42 []) State.reset)
      (fun t => decide (t.ctrl = .listen ∧ t.failCode = 8 ∧ t.pid = 0x42 ∧
        t.out = [.rxReq, .log .unsupportedObd, .rxReq])) = true := by decide

/-- A response byte as a request (B.6): service 0x41 is unsupported. -/
theorem test_step_response_as_request :
    nextHas (exec (.sf [0x41, 0x0C]) State.reset)
      (fun t => decide (t.failCode = 8 ∧ t.service = 0x41)) = true := by decide

/-- A multi-frame request is dropped (B.6). -/
theorem test_step_ff_at_listen :
    nextHas (exec (.ff 8 ⟨1, 0x0C, 0, 0, 0, 0⟩) State.reset)
      (fun t => decide (t.ctrl = .listen ∧ t.failCode = 3)) = true := by decide

/-- P1, tester side. -/
theorem test_step_rpm_response :
    nextHas (exec (.obdRspRpm 0x0ABC) (awaitingResponse 4095))
      (fun t => decide (t.status = .done ∧ t.hostPayload = some [0x41, 0x0C, 0x0A, 0xBC] ∧ t.resultLen = 4)) = true := by
  decide

/-- P2, tester side: the FF is answered by `[30 00 0A AA AA AA AA AA]`. -/
theorem test_step_vin_response :
    nextHas (exec (.obdRspVinFf 0x4B 0x4D 0x48) (awaitingResponse 4095))
      (fun t => decide (t.ctrl = .txFc ∧ t.cursor = 6 ∧ t.seq = 1 ∧ t.txf = ⟨0x7DF, .ofWord 0x30000AAAAAAAAAAA⟩)) = true := by
  decide

/-- P5: the second CF in place of the first. -/
theorem test_step_cf_out_of_order :
    nextHas (exec (.cf 2 ⟨0x55, 0x32, 0x35, 0x30, 0x35, 0x38, 0x30⟩) (midReceive 20 6 1 0 0))
      (fun t => decide (t.failCode = 2 ∧ t.cursor = 6)) = true := by decide

/-- P3: the sequence number wraps from 15 to 0, and the last chunk is short. -/
theorem test_step_cf_wraps :
    nextHas (exec (.cf 15 ⟨1, 2, 3, 4, 5, 6, 7⟩) (midReceive 113 104 15 8 2))
      (fun t => decide (t.seq = 0 ∧ t.cursor = 111 ∧ t.credit = 1 ∧ memRead t.pbuf 110 = some 7)) = true := by decide

/-- P6: FC(CTS, 1, F5) starts a sleep of 500 µs. -/
theorem test_step_cts :
    nextHas (exec (.fcCts 0x01 0xF5) awaitingFc)
      (fun t => decide (t.ctrl = .sleep ∧ t.credit = 1 ∧ t.creditInf = false ∧ t.out.getLast? = some (.sleep 500))) = true := by
  decide

/-- P6: FC(WAIT) and FC(OVF). -/
theorem test_step_wait : nextHas (exec (.fcWait 0 0) awaitingFc) (fun t => decide (t.ctrl = .awaitFc)) = true := by decide
theorem test_step_ovf :
    nextHas (exec (.fcOvf 0 0) awaitingFc) (fun t => decide (t.ctrl = .listen ∧ t.failCode = 5)) = true := by decide

/-- P5: an undefined frame type fails the transaction as MalformedPci. -/
theorem test_step_malformed :
    nextHas (exec (.pci8ToFInvalid 15) (awaitingResponse 4095))
      (fun t => decide (t.ctrl = .idleCmd ∧ t.failCode = 1 ∧
        t.out = [.log .malformedPci, .complete (.err .malformedPci)])) = true := by decide

/-- The last CF of the VIN response is transmitted with sequence number 2 (P2). -/
theorem test_step_sleep_done :
    nextHas (step { sleeping 2 with cursor := 13, seq := 2, timer := [0] })
      (fun t => decide (t.ctrl = .txCf ∧ t.txf.d = .ofWord 0x2255323530353830)) = true := by decide

/-- PBUF is the host's again after a reset in mid-transaction, with and without a link (log entry 23), and holds no result. -/
theorem test_reset_returns_pbuf :
    nextHas (step { midReceive 20 6 1 0 0 with agenda := [.reset true] })
        (fun t => t.hostOwnsPbuf && decide (t.hostPayload = none)) = true ∧
      nextHas (step { midReceive 20 6 1 0 0 with agenda := [.reset false] })
        (fun t => t.hostOwnsPbuf && decide (t.hostPayload = none)) = true := by decide

/-- Reset's PBUF has the canonical form. -/
theorem test_reset_pbuf_wf : memWf State.reset.pbuf = true := by decide

/-- A table word placed by `withFetchWord` is what the next step runs, in the tester for a response and in the simulator else. -/
theorem test_withFetchWord_response :
    nextHas (step ({ State.reset with cap := 4095 }.withFetchWord 64 0x04410C0ABC000000))
      (fun t => decide (t.status = .done ∧ t.ctrl = .idleCmd)) = true := by decide
theorem test_withFetchWord_request :
    nextHas (step (State.reset.withFetchWord 64 0x020902AAAAAAAAAA)) (fun t => decide (t.ctrl = .txFf)) = true := by decide

/-! ## Witnesses: the codec -/

theorem witness_DecodeBySourceFormulas_sf :
    typedFrame (.ofWord 0x00AAAAAAAAAAAAAA) = .invalid ∧ typedFrame (.ofWord 0x08AAAAAAAAAAAAAA) = .invalid ∧
      typedFrame (.ofWord 0x01AB000000000000) = .sf [0xAB] ∧
      typedFrame (.ofWord 0x0701020304050607) = .sf [1, 2, 3, 4, 5, 6, 7] := by decide
theorem witness_DecodeBySourceFormulas_ff :
    typedFrame (.ofWord 0x1007010203040506) = .invalid ∧
      typedFrame (.ofWord 0x1008010203040506) = .ff 8 ⟨1, 2, 3, 4, 5, 6⟩ := by decide
theorem witness_DecodeBySourceFormulas_cf :
    typedFrame (.ofWord 0x2001020304050607) = .cf 0 ⟨1, 2, 3, 4, 5, 6, 7⟩ := by decide
theorem witness_DecodeBySourceFormulas_fc :
    typedFrame (.ofWord 0x3001020304050607) = .fc .cts 1 2 ∧ typedFrame (.ofWord 0x3101020304050607) = .fc .wait 1 2 ∧
      typedFrame (.ofWord 0x3201020304050607) = .fc .ovf 1 2 ∧ typedFrame (.ofWord 0x3301020304050607) = .invalid := by decide
theorem witness_DecodeBySourceFormulas_other :
    typedFrame (.ofWord 0x4F01020304050607) = .invalid ∧ typedFrame (.ofWord 0xFF01020304050607) = .invalid := by decide
theorem witness_DecodeEncodeRoundTrip :
    Instr.wf (.obdReqOther 0x22 0xF1 [1, 2, 3, 4, 5]) = true ∧
      Instr.visibleIn .request (.obdReqOther 0x22 0xF1 [1, 2, 3, 4, 5]) = true := by decide
theorem witness_FillBytesAreIgnored :
    (Frame.ofWord 0x02010CAAAAAAAAAA).toList.take (fieldBytes (.ofWord 0x02010C5555555555))
      = (Frame.ofWord 0x02010C5555555555).toList.take (fieldBytes (.ofWord 0x02010C5555555555)) := by decide
theorem witness_EncodersLayOutFrames :
    encodeSF 0xAA [] = .malformedPci ∧ encodeSF 0xAA [1, 2, 3, 4, 5, 6, 7, 8] = .malformedPci ∧
      encodeSF 0xAA [1] = .frame (.ofWord 0x0101AAAAAAAAAAAA) ∧
      encodeFF 7 [1, 2, 3, 4, 5, 6] = .malformedPci ∧ encodeFF 8 [1, 2, 3, 4, 5, 6] = .frame (.ofWord 0x1008010203040506) ∧
      encodeCF 0xAA 0 [] = .outsideContract ∧ encodeCF 0xAA 9 [1, 2] = .frame (.ofWord 0x290102AAAAAAAAAA) := by decide
theorem witness_StminConversion :
    stminToUs 0x00 = 0 ∧ stminToUs 0x7F = 127000 ∧ stminToUs 0x80 = 127000 ∧ stminToUs 0xF0 = 127000 ∧
      stminToUs 0xF1 = 100 ∧ stminToUs 0xF9 = 900 ∧ stminToUs 0xFA = 127000 ∧ stminToUs 0xFF = 127000 := by decide

/-! ## Witnesses: rows at their receive points -/

theorem witness_sessionEnd_roles :
    (State.resetFor Config.tester true).cfg.role = .tester ∧ State.reset.cfg.role = .simulator := by decide
theorem witness_IllegalRowsAreMalformed :
    State.reset.ctrl = .listen ∧ (midReceive 20 6 1 0 0).ctrl = .rxWait ∧ awaitingFc.ctrl = .awaitFc := by decide
theorem witness_rowsAtListen :
    State.reset.ctrl = .listen ∧ Instr.wf (.obdReqOther 0x41 0x0C [0, 0]) = true := by decide

/-- SingleFrameReceived and ResponsesReachTheHost: room for exactly four bytes, and for one byte less. -/
theorem witness_SingleFrameReceived :
    Instr.wf (.obdRspRpm 0x0ABC) = true ∧ (awaitingResponse 4).ctrl = .rxWait ∧ (awaitingResponse 4).sess = .idle ∧
      (awaitingResponse 4).cfg.role = .tester ∧ 4 ≤ (awaitingResponse 4).cap.toNat ∧ (awaitingResponse 3).cap.toNat < 4 ∧
      3 ≤ (awaitingResponse 3).cap.toNat := by decide
theorem witness_SingleFrameReceived_rows :
    Instr.typed (.sf [1]) = .sf [1] ∧ Instr.typed (.obdReqRpm []) = .sf [1, 0x0C] ∧ Instr.typed (.obdReqShort 9) = .sf [9] := by
  decide
theorem witness_FirstFrameReceived :
    Instr.wf (.ff 20 ⟨1, 2, 3, 4, 5, 6⟩) = true ∧ (awaitingResponse 20).ctrl = .rxWait ∧ (awaitingResponse 20).sess = .idle ∧
      (20 : Len).toNat ≤ (awaitingResponse 20).cap.toNat ∧ (awaitingResponse 19).cap.toNat < (20 : Len).toNat := by decide

/-- ConsecutiveFrameReceived: the state, a wrong number, and the chunk that is the last one, uses up the credit, or does neither. -/
theorem witness_ConsecutiveFrameReceived_state :
    (midReceive 20 6 1 8 8).ctrl = .rxWait ∧ (midReceive 20 6 1 8 8).sess = .awaitCons ∧
      (2 : Nibble) ≠ (midReceive 20 6 1 8 8).seq ∧ (midReceive 20 6 1 8 8).cursor.toNat ≤ (midReceive 20 6 1 8 8).total.toNat ∧
      (midReceive 20 6 1 8 8).credit ≠ 0 ∧ (midReceive 20 6 1 0 0).creditInf = true := by decide
theorem witness_ConsecutiveFrameReceived_last :
    nextHas (exec (.cf 2 ⟨1, 2, 3, 4, 5, 6, 7⟩) (midReceive 20 13 2 0 0))
      (fun t => decide (t.ctrl = .idleCmd ∧ t.status = .done ∧ t.resultLen = 20)) = true := by decide
theorem witness_ConsecutiveFrameReceived_reload :
    nextHas (exec (.cf 1 ⟨1, 2, 3, 4, 5, 6, 7⟩) (midReceive 20 6 1 1 1))
      (fun t => decide (t.ctrl = .txFc ∧ t.credit = 1)) = true := by decide
theorem witness_ConsecutiveFrameReceived_more :
    nextHas (exec (.cf 1 ⟨1, 2, 3, 4, 5, 6, 7⟩) (midReceive 20 6 1 2 2))
      (fun t => decide (t.ctrl = .rxWait ∧ t.credit = 1)) = true := by decide
theorem witness_ConsecutiveFrameReceived_noRoom :
    faultsWith (exec (.cf 1 ⟨1, 2, 3, 4, 5, 6, 7⟩) { midReceive 20 6 1 0 0 with cap := 12 }) .capacityGuard = true ∧
      nextHas (exec (.cf 1 ⟨1, 2, 3, 4, 5, 6, 7⟩) { midReceive 20 6 1 0 0 with cap := 13 })
        (fun t => decide (t.cursor = 13)) = true := by decide
theorem witness_UnexpectedAtRxWait :
    nextHas (exec (.cf 1 ⟨1, 2, 3, 4, 5, 6, 7⟩) (awaitingResponse 4095)) (fun t => decide (t.failCode = 3)) = true ∧
      nextHas (exec (.sf [1]) (midReceive 20 6 1 0 0)) (fun t => decide (t.failCode = 3)) = true ∧
      Instr.typed (.fcWait 0 0) ≠ .invalid := by decide
theorem witness_rowsAtAwaitFc :
    awaitingFc.ctrl = .awaitFc ∧ awaitingFc.cursor ≠ awaitingFc.total ∧ Instr.typed (.sf [1]) ≠ .invalid := by decide
theorem witness_EffectDependsOnTypedFrame : Instr.typed (.sf [0x01, 0x0C]) = Instr.typed (.obdReqRpm []) := by decide
theorem witness_FramesStoreOnlyTheirBytes :
    nextHas (exec (.cf 1 ⟨1, 2, 3, 4, 5, 6, 7⟩) (midReceive 20 6 1 0 0)) (fun t => decide (memRead t.pbuf 12 = some 7)) = true ∧
      frameStores (Instr.typed (.cf 1 ⟨1, 2, 3, 4, 5, 6, 7⟩)) (midReceive 20 6 1 0 0) = some (6, [1, 2, 3, 4, 5, 6, 7]) ∧
      frameStores (Instr.typed (.cf 1 ⟨1, 2, 3, 4, 5, 6, 7⟩)) (awaitingResponse 20) = none := by decide
theorem witness_FramesKeepOtherRegisters :
    nextHas (exec (.fcCts 1 1) awaitingFc) (fun t => decide (t.status ≠ .done ∧ t.status ≠ .failed)) = true := by decide

/-! ## Witnesses: the sender, the drivers and the ports -/

theorem witness_SendStartsSession :
    memReadList (sleeping 1).pbuf 0 7 = some [0x49, 0x02, 0x01, 0x4B, 0x4D, 0x48, 0x43] ∧ (7 : Len).toNat ≤ 7 ∧
      memReadList (sleeping 1).pbuf 0 6 = some [0x49, 0x02, 0x01, 0x4B, 0x4D, 0x48] ∧ 7 < (8 : Len).toNat := by decide
theorem witness_ContinueChoosesRow :
    ({ sleeping 1 with cursor := 20 }.cursor = { sleeping 1 with cursor := 20 }.total) ∧
      (sleeping 0).cursor ≠ (sleeping 0).total ∧ (sleeping 0).creditInf = false ∧ (sleeping 0).credit = 0 ∧
      (sleeping 1).credit ≠ 0 := by decide

/-- A tester at IDLE_CMD with a held command (P5's capacity 10, and one above 4095). -/
def commanded (cap : Nat) : State := { State.resetFor Config.tester true with host := [⟨0x09, 0x02, cap⟩] }

theorem witness_CommandAccepted :
    (commanded 10).agenda = [] ∧ (commanded 10).ctrl = .idleCmd ∧ (commanded 10).host = [⟨0x09, 0x02, 10⟩] ∧
      nextHas (step (commanded 5000)) (fun t => decide (t.cap = 4095 ∧ t.txf.d = .ofWord 0x020902AAAAAAAAAA)) = true := by
  decide

/-- A state whose outstanding transmit succeeds, and one whose transmit fails. -/
def answered (s : State) (c : Ctrl) (ok : Bool) : State := { s with ctrl := c, txAnswers := [⟨3, ok⟩] }

theorem witness_TxOkStartsReceive :
    nextHas (step (answered (awaitingResponse 10) .txReq true)) (fun t => decide (t.ctrl = .rxWait ∧ t.rxReqAt = 3)) = true ∧
      nextHas (step (answered (midReceive 20 6 1 0 0) .txFc true)) (fun t => decide (t.sess = .awaitCons)) = true := by decide
theorem witness_TxOkOfFirstResponseFrame :
    nextHas (step (answered State.reset .txSf true)) (fun t => decide (t.status = .done)) = true ∧
      nextHas (step (answered State.reset .txFf true)) (fun t => decide (t.ctrl = .awaitFc ∧ t.cursor = 6)) = true := by decide
theorem witness_SleepDoneTransmitsChunk :
    nextHas (step { sleeping 1 with timer := [500], sleepDue := 500 }) (fun t => decide (t.ctrl = .txCf)) = true ∧
      memReadList (sleeping 1).pbuf 6 7 = some [0x43, 0x37, 0x35, 0x4C, 0x44, 0x30, 0x4D] := by decide
theorem witness_TxOkOfChunkAdvances :
    nextHas (step (answered (sleeping 1) .txCf true)) (fun t => decide (t.cursor = 13 ∧ t.credit = 0 ∧ t.seq = 2)) = true := by
  decide
theorem witness_LinkFailures :
    nextHas (step (answered (sleeping 1) .txCf false)) (fun t => decide (t.failCode = 7 ∧ t.cursor = 6)) = true ∧
      nextHas (step { awaitingResponse 9 with link := [⟨0, .err⟩] }) (fun t => decide (t.failCode = 7)) = true ∧
      nextHas (step { State.reset with link := [⟨0, .err⟩] }) (fun t => decide (t.ctrl = .listen ∧ t.failCode = 7)) = true := by
  decide

/-- A tester with HAS_TIMEOUT that is given a `Timeout` after `delay`. -/
def timedOut (delay : Nat) : State :=
  { awaitingResponse 9 with cfg := { Config.tester with hasTimeout := true }, link := [⟨delay, .timeout⟩] }

theorem witness_TimeoutFailsSession :
    nextHas (step (timedOut 1000000)) (fun t => decide (t.failCode = 6)) = true ∧
      refusedWith (step (timedOut 999999)) .timeoutNotAllowed = true ∧
      refusedWith (step { awaitingResponse 9 with link := [⟨1000000, .timeout⟩] }) .timeoutNotAllowed = true := by decide
theorem witness_ForeignFramesDropped :
    nextHas (step { awaitingResponse 9 with link := [⟨0, .frame 0x7E9 (.ofWord 0x04410C0000AAAAAA)⟩] })
      (fun t => decide (t.ctrl = .rxWait ∧ t.out = [.rxReq])) = true := by decide
theorem witness_StepRunsDecodedFrame :
    (awaitingResponse 9).ctrl.view = some .response ∧ State.reset.ctrl.view = some .request ∧
      awaitingFc.ctrl.view = some .frame := by decide
theorem witness_WaitsKeepEverything :
    State.reset.agenda = [] ∧ (State.resetFor Config.tester true).ctrl = .idleCmd ∧
      (answered State.reset .txSf true).ctrl.transmits = true ∧ State.reset.ctrl.view ≠ none ∧ (sleeping 1).ctrl = .sleep ∧
      (State.resetFor Config.tester false).ctrl = .halt := by decide

/-! ## Witnesses: reset and the whole-machine rules -/

theorem witness_ResetLeaves :
    nextHas (step { midReceive 20 6 1 0 0 with agenda := [.reset true] })
      (fun t => decide (t.ctrl = .idleCmd ∧ t.status = .none ∧ t.out = [])) = true ∧
      nextHas (step { sleeping 1 with agenda := [.reset false] }) (fun t => decide (t.ctrl = .halt)) = true := by decide
theorem witness_Inv_midReceive : (midReceive 20 6 1 0 0).Inv := by constructor <;> decide
theorem witness_Inv_sleeping : (sleeping 1).Inv := by constructor <;> decide
theorem witness_Inv_awaitingResponse : (awaitingResponse 10).Inv := by constructor <;> decide
theorem witness_StepIsTotal_sleep :
    State.Inv { sleeping 1 with timer := [500], sleepDue := 500 } ∧
      State.envLegal { sleeping 1 with timer := [500], sleepDue := 500 } = true :=
  ⟨by constructor <;> decide, by decide⟩
theorem witness_StepIsTotal_timeout : (timedOut 1000000).Inv ∧ (timedOut 1000000).envLegal = true :=
  ⟨by constructor <;> decide, by decide⟩
theorem witness_StepKeepsInvariant :
    (timedOut 1000000).Inv ∧ nextHas (step (timedOut 1000000)) (fun t => decide (t.ctrl = .idleCmd)) = true :=
  ⟨by constructor <;> decide, by decide⟩
theorem witness_RowsCompleteOrStopByName : (midReceive 20 6 1 0 0).Inv ∧ (midReceive 20 6 1 0 0).ctrl.view ≠ none :=
  ⟨by constructor <;> decide, by decide⟩

theorem witness_RowsCompleteOrStopByName_stops :
    refusedWith (exec (.sf [1]) (sleeping 1)) .noReceiveOutstanding = true ∧
      faultsWith (exec (.fcCts 0 0) { awaitingResponse 9 with sess := .awaitFlow }) .stateDisagrees = true ∧
      faultsWith (exec (.cf 1 ⟨1, 2, 3, 4, 5, 6, 7⟩) { midReceive 20 6 1 0 0 with cursor := 21 }) .cursorBeyondTotal = true ∧
      faultsWith (exec (.cf 1 ⟨1, 2, 3, 4, 5, 6, 7⟩) (midReceive 20 6 1 1 0)) .creditUnderflow = true := by decide
theorem witness_ParametersNeverChange :
    nextHas (step { State.reset with agenda := [.dataWrite 0x0ABC 0x55] }) (fun t => decide (t.rpm = 0x0ABC)) = true := by
  decide
theorem witness_PbufWritesStayInBounds_receive :
    State.Inv { midReceive 20 6 1 0 0 with link := [⟨0, .frame 0x7E8 (.ofWord 0x214337354C44304D)⟩] } ∧
      nextHas (step { midReceive 20 6 1 0 0 with link := [⟨0, .frame 0x7E8 (.ofWord 0x214337354C44304D)⟩] })
        (fun t => decide (memRead t.pbuf 12 = some 0x4D ∧ memRead t.pbuf 13 = none)) = true :=
  ⟨by constructor <;> decide, by decide⟩
theorem witness_PbufWritesStayInBounds_send :
    State.Inv { sleeping 1 with timer := [0] } ∧ (sleeping 1).inSend = true ∧
      nextHas (step { sleeping 1 with timer := [0] }) (fun t => decide (t.pbuf = (sleeping 1).pbuf)) = true :=
  ⟨by constructor <;> decide, by decide, by decide⟩
theorem witness_FailuresArePrecise :
    nextHas (step (answered (sleeping 1) .txCf false))
      (fun t => decide (Output.log .linkError ∈ emitted (answered (sleeping 1) .txCf false) t)) = true := by decide
theorem witness_OneCompletePerTransaction_failed :
    State.Inv { awaitingResponse 9 with link := [⟨0, .err⟩] } ∧ (awaitingResponse 9).ctrl.inTransaction = true ∧
      nextHas (step { awaitingResponse 9 with link := [⟨0, .err⟩] })
        (fun t => decide (t.ctrl = .idleCmd ∧ completions (emitted (awaitingResponse 9) t) = [.err .linkError])) = true :=
  ⟨by constructor <;> decide, by decide, by decide⟩
theorem witness_OneCompletePerTransaction_done :
    nextHas (step { awaitingResponse 9 with link := [⟨0, .frame 0x7E8 (.ofWord 0x03410D55AAAAAAAA)⟩] })
      (fun t => decide (t.ctrl = .idleCmd ∧ completions (emitted (awaitingResponse 9) t) = [.ok 3])) = true := by decide
theorem witness_ChunksSpacedByStmin_early :
    refusedWith (step { sleeping 1 with timer := [499], sleepDue := 500 }) .sleepTooShort = true := by decide
theorem witness_ChunksSpacedByStmin_enter :
    nextHas (exec (.fcCts 0 0x0A) awaitingFc) (fun t => decide (t.ctrl = .sleep ∧ t.sleepDue = 10000)) = true := by decide

/-! ## Witnesses: messages -/

theorem witness_SingleFrameDeliversPayload :
    (awaitingResponse 7).ctrl = .rxWait ∧ [1, 2, 3, 4, 5, 6, 7].length ≤ (awaitingResponse 7).cap.toNat := by decide

/-- An 8-byte message for a tester with room for exactly it. -/
def eightBytes : List Byte := [1, 2, 3, 4, 5, 6, 7, 8]

theorem witness_messageFrames :
    messageFrames 0xAA eightBytes = [.ofWord 0x1008010203040506, .ofWord 0x210708AAAAAAAAAA] := by decide
theorem witness_ReceiverReassemblesMessage :
    (awaitingResponse 8).agenda = [] ∧ (awaitingResponse 8).cfg.role = .tester ∧ (awaitingResponse 8).ctrl = .rxWait ∧
      (awaitingResponse 8).sess = .idle ∧ 8 ≤ eightBytes.length ∧ eightBytes.length ≤ (awaitingResponse 8).cap.toNat ∧
      [LinkAnswer.mk 2 (.frame 0x7E8 (.ofWord 0x1008010203040506)), ⟨0, .frame 0x7E8 (.ofWord 0x210708AAAAAAAAAA)⟩].map
          (·.event) = (messageFrames 0xAA eightBytes).map (.frame (awaitingResponse 8).cfg.rxId) ∧
      (∀ a ∈ [TxAnswer.mk 0 true, ⟨9, true⟩], a.ok = true) ∧
      (messageFrames 0xAA eightBytes).length ≤ [TxAnswer.mk 0 true, ⟨9, true⟩].length := by decide
theorem witness_SenderSegmentsMessage :
    memReadList (memWriteList [] 0 eightBytes) 0 8 = some eightBytes ∧
      nextHas (send 8 { State.reset with
          pbuf := memWriteList [] 0 eightBytes, link := List.replicate 2 ⟨0, .frame 0x7DF (encodeFC 0xAA .cts 1 0x0A)⟩,
          txAnswers := [⟨0, true⟩, ⟨0, true⟩], timer := [127000, 127000] })
        (fun t => decide (t.ctrl = .txFf ∧ t.txf.d = .ofWord 0x1008010203040506)) = true ∧
      (messageFrames 0xAA eightBytes).length = 2 := by decide
theorem witness_BlockSizeGrantsExactly :
    State.Inv { sleeping 1 with timer := [127000], txAnswers := [⟨0, true⟩] } ∧
      (sleeping 1).agenda = [] ∧ (sleeping 1).ctrl = .sleep ∧ (sleeping 1).creditInf = false ∧
      (sleeping 1).credit.toNat = 1 ∧ (sleeping 1).cursor.toNat + 7 * 1 < (sleeping 1).total.toNat ∧
      (sleeping 1).sleepDue ≤ (sleeping 1).now + 127000 :=
  ⟨by constructor <;> decide, by decide⟩

end Sys2Proof.Tests
end

section
/-! O50: the block's rules leave the parameters and the DATA port alone. `step_cases` says whose turn a step was; for the block's
turn, one lemma per operation says that it keeps `State.readOnly`, and `exec` and `blockStep` are assembled from them. -/

namespace Sys2Proof.Machine

/-- What the block reads and never writes: its parameters (R8, R39) and the two values of the DATA port (R32). -/
def State.readOnly (s : State) : Config × BitVec 16 × Byte := (s.cfg, s.rpm, s.speed)

/-- Every next state of the rule has the parameters and the DATA port of the state the rule started in. -/
def KeepsReadOnly (f : State → Result) : Prop := ∀ ⦃s t : State⦄, f s = .next t → t.readOnly = s.readOnly

/-! ## Whose turn a step was -/

/-- A step that answers a next state was the block's turn, a write of the data source, or a reset (R32, R36, R138). -/
theorem step_cases {s t : State} (h : step s = .next t) :
    (s.agenda = [] ∧ blockStep s = .next t) ∨
      (∃ rest, s.agenda = .block :: rest ∧ blockStep (s.withAgenda rest) = .next t) ∨
      (∃ rpm speed rest, s.agenda = .dataWrite rpm speed :: rest ∧ t = dataWrite rpm speed (s.withAgenda rest)) ∨
      (∃ linkOk rest, s.agenda = .reset linkOk :: rest ∧ t = (s.withAgenda rest).bootFrom linkOk) := by
  unfold step turnStep at h
  split at h
  · next ha => exact .inl ⟨ha, h⟩
  · next rest ha => exact .inr (.inl ⟨rest, ha, h⟩)
  · next rpm speed rest ha =>
    cases h
    exact .inr (.inr (.inl ⟨rpm, speed, rest, ha, rfl⟩))
  · next linkOk rest ha =>
    cases h
    exact .inr (.inr (.inr ⟨linkOk, rest, ha, rfl⟩))

/-! ## Updates of the state -/

theorem bootFrom_readOnly (s : State) (linkOk : Bool) : (s.bootFrom linkOk).readOnly = s.readOnly := by
  unfold State.bootFrom
  split <;> rfl

theorem raiseFail_readOnly (k : ErrorKind) (s : State) : (raiseFail k s).readOnly = s.readOnly := by
  simp [State.readOnly]

theorem raiseDone_readOnly (s : State) : (raiseDone s).readOnly = s.readOnly := by
  simp [State.readOnly]

theorem continueSend_readOnly (s : State) : (continueSend s).readOnly = s.readOnly := by
  obtain ⟨-, h⟩ | ⟨-, -, h⟩ | ⟨-, -, h⟩ := continueSend_cases s <;> rw [h]
  · exact raiseDone_readOnly s
  · rfl
  · rfl

theorem afterChunk_readOnly (s : State) : (afterChunk s).readOnly = s.readOnly := by
  obtain ⟨-, h⟩ | ⟨-, -, h⟩ | ⟨-, -, h⟩ := afterChunk_cases s <;> rw [h]
  · exact raiseDone_readOnly s
  · rfl
  · rfl

/-! ## Operations shared by the rules -/

/-- A rule that always answers with the same update keeps what the update keeps. -/
theorem keepsReadOnly_next {g : State → State} (hg : ∀ s, (g s).readOnly = s.readOnly) :
    KeepsReadOnly fun s => .next (g s) := by
  intro s t h
  cases h
  exact hg s

theorem fail_keepsReadOnly (k : ErrorKind) : KeepsReadOnly (fail k) :=
  keepsReadOnly_next (raiseFail_readOnly k)

theorem dropRequest_keepsReadOnly (k : ErrorKind) : KeepsReadOnly (dropRequest k) :=
  keepsReadOnly_next fun _ => rfl

theorem waitForAnswer_keepsReadOnly : KeepsReadOnly waitForAnswer :=
  keepsReadOnly_next fun _ => rfl

theorem transmit_keepsReadOnly (at' : Ctrl) (e : Encoded) : KeepsReadOnly (transmit at' e) := by
  intro s t h
  obtain ⟨d, -, rfl⟩ | ⟨-, rfl⟩ := transmit_next h
  · rfl
  · exact raiseFail_readOnly _ s

/-- Spending a credit writes CREDIT at most. -/
theorem spendCredit_readOnly {s t : State} {k : State → Result} (hk : KeepsReadOnly k) (h : s.spendCredit k = .next t) :
    t.readOnly = s.readOnly := by
  obtain ⟨-, h⟩ | ⟨-, -, h⟩ := State.spendCredit_next h
  · exact hk h
  · exact (hk h).trans rfl

theorem onReceive_keepsReadOnly {listen rxWait awaitFc : State → Result} (hl : KeepsReadOnly listen)
    (hr : KeepsReadOnly rxWait) (ha : KeepsReadOnly awaitFc) : KeepsReadOnly (onReceive listen rxWait awaitFc) := by
  intro s t h
  unfold onReceive at h
  split at h
  · exact hl h
  · exact hr h
  · exact ha h
  all_goals cases h

theorem onState_keepsReadOnly {idle awaitCons : State → Result} (hi : KeepsReadOnly idle)
    (hc : KeepsReadOnly awaitCons) : KeepsReadOnly (onState idle awaitCons) := by
  intro s t h
  unfold onState at h
  split at h
  · exact hi h
  · exact hc h
  all_goals cases h

/-! ## The receiver (R100 to R105) -/

theorem receiveSf_keepsReadOnly (p : List Byte) : KeepsReadOnly (receiveSf p) := by
  intro s t h
  unfold receiveSf at h
  split at h
  · exact fail_keepsReadOnly _ h
  · obtain ⟨-, h⟩ := State.store_next h
    cases h
    exact raiseDone_readOnly _

theorem receiveFf_keepsReadOnly (total : Len) (p : Bytes6) : KeepsReadOnly (receiveFf total p) := by
  intro s t h
  unfold receiveFf at h
  split at h
  · exact fail_keepsReadOnly _ h
  · obtain ⟨-, h⟩ := State.store_next h
    cases h
    rfl

theorem receiveCf_keepsReadOnly (seq : Nibble) (p : Bytes7) : KeepsReadOnly (receiveCf seq p) := by
  intro s t h
  unfold receiveCf at h
  split at h
  · obtain ⟨-, h⟩ := State.withChunk_next h
    split at h
    · cases h
    · obtain ⟨-, h⟩ := State.store_next h
      exact (spendCredit_readOnly (keepsReadOnly_next afterChunk_readOnly) h).trans rfl
  · exact fail_keepsReadOnly _ h

theorem sfAtRxWait_keepsReadOnly (p : List Byte) : KeepsReadOnly (sfAtRxWait p) :=
  onState_keepsReadOnly (receiveSf_keepsReadOnly p) (fail_keepsReadOnly _)

theorem ffAtRxWait_keepsReadOnly (total : Len) (p : Bytes6) : KeepsReadOnly (ffAtRxWait total p) :=
  onState_keepsReadOnly (receiveFf_keepsReadOnly total p) (fail_keepsReadOnly _)

theorem cfAtRxWait_keepsReadOnly (seq : Nibble) (p : Bytes7) : KeepsReadOnly (cfAtRxWait seq p) :=
  onState_keepsReadOnly (fail_keepsReadOnly _) (receiveCf_keepsReadOnly seq p)

theorem fcAtRxWait_keepsReadOnly : KeepsReadOnly fcAtRxWait :=
  onState_keepsReadOnly (fail_keepsReadOnly _) (fail_keepsReadOnly _)

/-! ## The sender (R87 to R97) -/

theorem send_keepsReadOnly (len : Len) : KeepsReadOnly (send len) := by
  intro s t h
  unfold send at h
  split at h <;> obtain ⟨p, -, h⟩ := State.load_next h
  · exact (transmit_keepsReadOnly _ _ h).trans rfl
  · exact (transmit_keepsReadOnly _ _ h).trans rfl

theorem clearToSend_keepsReadOnly (bs stmin : Byte) : KeepsReadOnly (clearToSend bs stmin) :=
  keepsReadOnly_next fun s => continueSend_readOnly (grantCredit bs stmin s)

theorem keepWaiting_keepsReadOnly : KeepsReadOnly keepWaiting :=
  keepsReadOnly_next fun _ => rfl

theorem sleepDoneAtSleep_keepsReadOnly : KeepsReadOnly sleepDoneAtSleep := by
  intro s t h
  obtain ⟨-, h⟩ := State.withChunk_next h
  obtain ⟨p, -, h⟩ := State.load_next h
  exact transmit_keepsReadOnly _ _ h

theorem txOkAtTxSf_keepsReadOnly : KeepsReadOnly txOkAtTxSf :=
  keepsReadOnly_next fun s => raiseDone_readOnly (sentSf s)

theorem txOkAtTxFf_keepsReadOnly : KeepsReadOnly txOkAtTxFf :=
  keepsReadOnly_next fun _ => rfl

theorem txOkAtTxCf_keepsReadOnly : KeepsReadOnly txOkAtTxCf := by
  intro s t h
  obtain ⟨-, h⟩ := State.withChunk_next h
  exact (spendCredit_readOnly (keepsReadOnly_next continueSend_readOnly) h).trans rfl

theorem txOkAtTxFc_keepsReadOnly : KeepsReadOnly txOkAtTxFc :=
  keepsReadOnly_next fun _ => rfl

theorem txOkAtTxReq_keepsReadOnly : KeepsReadOnly txOkAtTxReq :=
  keepsReadOnly_next fun _ => rfl

/-! ## The role drivers (R114 to R120) -/

theorem acceptCommand_keepsReadOnly (r : Request) : KeepsReadOnly (acceptCommand r) := by
  intro s t h
  exact (transmit_keepsReadOnly _ _ h).trans rfl

theorem serve_keepsReadOnly (service pid : Byte) : KeepsReadOnly (serve service pid) := by
  intro s t h
  unfold serve at h
  split at h
  · obtain ⟨-, h⟩ := State.store_next h
    exact (send_keepsReadOnly _ h).trans rfl
  · cases h
    rfl

theorem acceptRequest_keepsReadOnly (p : List Byte) : KeepsReadOnly (acceptRequest p) := by
  intro s t h
  unfold acceptRequest at h
  split at h
  · exact serve_keepsReadOnly _ _ h
  · exact dropRequest_keepsReadOnly _ h

/-! ## The meanings of the rows -/

theorem invalidFrame_keepsReadOnly : KeepsReadOnly invalidFrame :=
  onReceive_keepsReadOnly (dropRequest_keepsReadOnly _) (fail_keepsReadOnly _) (fail_keepsReadOnly _)

theorem execSf_keepsReadOnly (p : List Byte) : KeepsReadOnly (execSf p) :=
  onReceive_keepsReadOnly (acceptRequest_keepsReadOnly p) (sfAtRxWait_keepsReadOnly p) (fail_keepsReadOnly _)

theorem execFf_keepsReadOnly (total : Len) (p : Bytes6) : KeepsReadOnly (execFf total p) :=
  onReceive_keepsReadOnly (dropRequest_keepsReadOnly _) (ffAtRxWait_keepsReadOnly total p) (fail_keepsReadOnly _)

theorem execCf_keepsReadOnly (seq : Nibble) (p : Bytes7) : KeepsReadOnly (execCf seq p) :=
  onReceive_keepsReadOnly (dropRequest_keepsReadOnly _) (cfAtRxWait_keepsReadOnly seq p) (fail_keepsReadOnly _)

/-- A Flow Control keeps what its rule at AWAIT_FC keeps. -/
theorem flowControl_keepsReadOnly {awaitFc : State → Result} (h : KeepsReadOnly awaitFc) :
    KeepsReadOnly (onReceive (dropRequest .unexpectedFrame) fcAtRxWait awaitFc) :=
  onReceive_keepsReadOnly (dropRequest_keepsReadOnly _) fcAtRxWait_keepsReadOnly h

/-- An obd row has the effect of the Single or First Frame it names, so the rows SF, FF and CF, the Flow Controls and the illegal rows
cover all of them. -/
theorem exec_keepsReadOnly (i : Instr) : KeepsReadOnly (exec i) := by
  cases i with
  | sfLen0Invalid => exact invalidFrame_keepsReadOnly
  | sfLen8To15Invalid len => exact invalidFrame_keepsReadOnly
  | sf p => exact execSf_keepsReadOnly p
  | ffShortInvalid total => exact invalidFrame_keepsReadOnly
  | ff total p => exact execFf_keepsReadOnly total p
  | cf seq p => exact execCf_keepsReadOnly seq p
  | fcCts bs stmin => exact flowControl_keepsReadOnly (clearToSend_keepsReadOnly bs stmin)
  | fcWait bs stmin => exact flowControl_keepsReadOnly keepWaiting_keepsReadOnly
  | fcOvf bs stmin => exact flowControl_keepsReadOnly (fail_keepsReadOnly _)
  | fcRsv3Invalid => exact invalidFrame_keepsReadOnly
  | fcRsv4To7Invalid fs => exact invalidFrame_keepsReadOnly
  | fcRsv8To15Invalid fs => exact invalidFrame_keepsReadOnly
  | pci4To7Invalid hn => exact invalidFrame_keepsReadOnly
  | pci8ToFInvalid hn => exact invalidFrame_keepsReadOnly
  | obdReqRpm extra => exact execSf_keepsReadOnly (0x01 :: 0x0C :: extra)
  | obdReqSpeed extra => exact execSf_keepsReadOnly (0x01 :: 0x0D :: extra)
  | obdReqVin extra => exact execSf_keepsReadOnly (0x09 :: 0x02 :: extra)
  | obdReqOther service pid extra => exact execSf_keepsReadOnly (service :: pid :: extra)
  | obdReqShort p0 => exact execSf_keepsReadOnly [p0]
  | obdRspRpm rpm => exact execSf_keepsReadOnly [0x41, 0x0C, highByte rpm, lowByte rpm]
  | obdRspSpeed speed => exact execSf_keepsReadOnly [0x41, 0x0D, speed]
  | obdRspVinFf v0 v1 v2 => exact execFf_keepsReadOnly 20 ⟨0x49, 0x02, 0x01, v0, v1, v2⟩

/-! ## The delivery of events -/

theorem commandStep_keepsReadOnly : KeepsReadOnly commandStep := by
  intro s t h
  unfold commandStep at h
  split at h
  · exact waitForAnswer_keepsReadOnly h
  · exact (acceptCommand_keepsReadOnly _ h).trans rfl

theorem txStep_keepsReadOnly {txOk : State → Result} (hok : KeepsReadOnly txOk) : KeepsReadOnly (txStep txOk) := by
  intro s t h
  unfold txStep at h
  split at h
  · exact waitForAnswer_keepsReadOnly h
  · split at h
    · exact (hok h).trans rfl
    · exact (fail_keepsReadOnly _ h).trans rfl

theorem sleepStep_keepsReadOnly : KeepsReadOnly sleepStep := by
  intro s t h
  unfold sleepStep at h
  split at h
  · exact waitForAnswer_keepsReadOnly h
  · split at h
    · cases h
    · exact (sleepDoneAtSleep_keepsReadOnly h).trans rfl

theorem frameStep_keepsReadOnly (v : View) (id : CanId) (d : Frame) : KeepsReadOnly (frameStep v id d) := by
  intro s t h
  unfold frameStep at h
  split at h
  · exact exec_keepsReadOnly _ h
  · cases h
    rfl

theorem rxErrStep_keepsReadOnly : KeepsReadOnly rxErrStep := by
  intro s t h
  unfold rxErrStep at h
  split at h
  · exact dropRequest_keepsReadOnly _ h
  · exact fail_keepsReadOnly _ h

theorem timeoutStep_keepsReadOnly : KeepsReadOnly timeoutStep := by
  intro s t h
  unfold timeoutStep at h
  split at h
  · exact fail_keepsReadOnly _ h
  · cases h

theorem linkStep_keepsReadOnly (v : View) : KeepsReadOnly (linkStep v) := by
  intro s t h
  unfold linkStep at h
  split at h
  · exact waitForAnswer_keepsReadOnly h
  · exact (frameStep_keepsReadOnly _ _ _ h).trans rfl
  · exact (rxErrStep_keepsReadOnly h).trans rfl
  · exact (timeoutStep_keepsReadOnly h).trans rfl

theorem blockStep_keepsReadOnly : KeepsReadOnly blockStep := by
  intro s t h
  cases hc : s.ctrl <;> simp only [blockStep, hc] at h
  case idleCmd => exact commandStep_keepsReadOnly h
  case txReq => exact txStep_keepsReadOnly txOkAtTxReq_keepsReadOnly h
  case rxWait => exact linkStep_keepsReadOnly _ h
  case txFc => exact txStep_keepsReadOnly txOkAtTxFc_keepsReadOnly h
  case listen => exact linkStep_keepsReadOnly _ h
  case txSf => exact txStep_keepsReadOnly txOkAtTxSf_keepsReadOnly h
  case txFf => exact txStep_keepsReadOnly txOkAtTxFf_keepsReadOnly h
  case awaitFc => exact linkStep_keepsReadOnly _ h
  case sleep => exact sleepStep_keepsReadOnly h
  case txCf => exact txStep_keepsReadOnly txOkAtTxCf_keepsReadOnly h
  case halt => exact waitForAnswer_keepsReadOnly h

/-- A step keeps the parameters and the DATA port, or it is a write of the data source. -/
theorem step_readOnly {s t : State} (h : step s = .next t) :
    t.readOnly = s.readOnly ∨
      ∃ rpm speed rest, s.agenda = .dataWrite rpm speed :: rest ∧ t = dataWrite rpm speed (s.withAgenda rest) := by
  obtain ⟨-, h⟩ | ⟨rest, -, h⟩ | hdata | ⟨linkOk, rest, -, rfl⟩ := step_cases h
  · exact .inl (blockStep_keepsReadOnly h)
  · exact .inl ((blockStep_keepsReadOnly h).trans rfl)
  · exact .inr hdata
  · exact .inl (bootFrom_readOnly _ linkOk)

/-- Settles O50: the block's turn and a reset keep all of `State.readOnly`, a write of the data source keeps the parameters. -/
theorem parametersNeverChange : Obligations.ParametersNeverChange := by
  intro s t h
  obtain heq | ⟨rpm, speed, rest, ha, rfl⟩ := step_readOnly h
  · obtain ⟨hcfg, hrpm, hspeed⟩ : t.cfg = s.cfg ∧ t.rpm = s.rpm ∧ t.speed = s.speed := by
      simpa [State.readOnly] using heq
    exact ⟨hcfg, fun _ => ⟨hrpm, hspeed⟩⟩
  · exact ⟨rfl, fun hno => absurd ha (hno rpm speed rest)⟩

end Sys2Proof.Machine
end

section
/-! What a step can do, said once: `FrameEffect` lists what a received frame's rule can answer (R90 to R94, R99 to R105, R118),
`BlockMove` lists the block's moves, and `exec_effect` and `blockStep_move` say that nothing else happens. Proofs about a step go
through these two. -/

namespace Sys2Proof.Machine

/-! ## Inversion of the shared operations -/

/-- `if CREDIT_INF = 0 then CREDIT <- CREDIT - 1` (R97, R102) as a relation. -/
inductive Spent (s : State) : State → Prop where
  | unlimited (h : s.creditInf = true) : Spent s s
  | finite (h : s.creditInf = false) (hc : s.credit ≠ 0) : Spent s (setCredit (s.credit - 1) s)

theorem spendCredit_spent {s t : State} {k : State → Result} (h : s.spendCredit k = .next t) :
    ∃ u, Spent s u ∧ k u = .next t := by
  obtain ⟨hi, h⟩ | ⟨hi, hc, h⟩ := State.spendCredit_next h
  · exact ⟨s, .unlimited hi, h⟩
  · exact ⟨_, .finite hi hc, h⟩

theorem onReceive_next {listen rxWait awaitFc : State → Result} {s t : State}
    (h : onReceive listen rxWait awaitFc s = .next t) :
    (s.ctrl = .listen ∧ listen s = .next t) ∨ (s.ctrl = .rxWait ∧ rxWait s = .next t) ∨
      (s.ctrl = .awaitFc ∧ awaitFc s = .next t) := by
  unfold onReceive at h
  split at h
  · next hc => exact .inl ⟨hc, h⟩
  · next hc => exact .inr (.inl ⟨hc, h⟩)
  · next hc => exact .inr (.inr ⟨hc, h⟩)
  all_goals cases h

theorem onState_next {idle awaitCons : State → Result} {s t : State} (h : onState idle awaitCons s = .next t) :
    (s.sess = .idle ∧ idle s = .next t) ∨ (s.sess = .awaitCons ∧ awaitCons s = .next t) := by
  unfold onState at h
  split at h
  · next hs => exact .inl ⟨hs, h⟩
  · next hs => exact .inr ⟨hs, h⟩
  all_goals cases h

theorem dispatch_length {service pid : Byte} {snap : DataSnapshot} {vin : Vector Byte 17} {r : List Byte}
    (h : dispatch service pid snap vin = some r) : 1 ≤ r.length ∧ r.length ≤ 20 := by
  unfold dispatch at h
  split at h
  · cases h; simp [rpmResponse]
  · split at h
    · cases h; simp [speedResponse]
    · split at h
      · cases h; simp [vinResponse]
      · cases h

/-- A payload of 1..7 bytes always has a Single Frame (R81). -/
theorem encodeSF_ne_malformed {fill : Byte} {p : List Byte} (h1 : 1 ≤ p.length) (h7 : p.length ≤ 7) :
    encodeSF fill p ≠ .malformedPci := by
  rw [encodeSF, if_neg (by omega)]
  exact nofun

/-- A total of 8 or more is never malformed (R82). -/
theorem encodeFF_ne_malformed {total : Len} {p : List Byte} (h : 7 < total.toNat) : encodeFF total p ≠ .malformedPci := by
  unfold encodeFF
  rw [if_neg (by omega)]
  split <;> exact nofun

/-- `EncodeCF` has no error (R83). -/
theorem encodeCF_ne_malformed {fill : Byte} {seq : Nibble} {p : List Byte} : encodeCF fill seq p ≠ .malformedPci := by
  unfold encodeCF
  split <;> exact nofun

theorem transmit_emits {at' : Ctrl} {e : Encoded} {s t : State} (he : e ≠ .malformedPci)
    (h : transmit at' e s = .next t) : ∃ d, t = emitTx at' d s := by
  obtain ⟨d, -, rfl⟩ | ⟨hm, -⟩ := transmit_next h
  · exact ⟨d, rfl⟩
  · exact absurd hm he

/-- `SEND` of a payload that is not empty transmits an SF or an FF (R87). -/
theorem send_emits {len : Len} {s t : State} (hlen : 1 ≤ len.toNat) (h : send len s = .next t) :
    ∃ d, t = emitTx (if len.toNat ≤ 7 then .txSf else .txFf) d (beginSend len s) := by
  unfold send at h
  split at h
  · next h7 =>
    obtain ⟨p, hp, h⟩ := State.load_next h
    have hlength := memReadList_length hp
    rw [if_pos h7]
    exact transmit_emits (encodeSF_ne_malformed (by omega) (by omega)) h
  · next h7 =>
    obtain ⟨p, -, h⟩ := State.load_next h
    rw [if_neg h7]
    exact transmit_emits (encodeFF_ne_malformed (by omega)) h

/-! ## Received frames -/

/-- The meaning of a frame by its typed frame: the obd rows have the effect of the SF or FF they sit on. -/
def execTyped : TypedFrame → State → Result
  | .sf p => execSf p
  | .ff total p => execFf total p
  | .cf seq p => execCf seq p
  | .fc .cts bs stmin => execFcCts bs stmin
  | .fc .wait bs stmin => execFcWait bs stmin
  | .fc .ovf bs stmin => execFcOvf bs stmin
  | .invalid => invalidFrame

theorem exec_eq_execTyped (i : Instr) (s : State) : exec i s = execTyped i.typed s := by
  cases i <;> rfl

/-- The size of the next consecutive chunk (R96, R97, R102). -/
def State.chunk (s : State) : Nat := min 7 (s.total.toNat - s.cursor.toNat)

/-- What the rule for a received frame can answer, by the frame and the control point. -/
inductive FrameEffect (s : State) : TypedFrame → State → Prop where
  /-- R118, R119. -/
  | dropped (f : TypedFrame) (k : ErrorKind) (hc : s.ctrl = .listen) : FrameEffect s f (drop k s)
  /-- R112, R118. -/
  | unsupported (service pid : Byte) (extra : List Byte) (hc : s.ctrl = .listen) :
    FrameEffect s (.sf (service :: pid :: extra)) (drop .unsupportedObd (latchRequest service pid s))
  /-- R118, then R87. -/
  | served (service pid : Byte) (extra r : List Byte) (d : Frame) (hc : s.ctrl = .listen) (h1 : 1 ≤ r.length)
      (h20 : r.length ≤ 20) :
    FrameEffect s (.sf (service :: pid :: extra))
      (emitTx (if r.length ≤ 7 then .txSf else .txFf) d
        (beginSend (BitVec.ofNat 12 r.length) ((latchRequest service pid s).writePbuf 0 r)))
  /-- R92 to R94, R99, R105 and the checks of R100 to R102. -/
  | failed (f : TypedFrame) (k : ErrorKind) (hc : s.ctrl = .rxWait ∨ s.ctrl = .awaitFc) : FrameEffect s f (raiseFail k s)
  /-- R100. -/
  | single (p : List Byte) (hc : s.ctrl = .rxWait) (hs : s.sess = .idle) (hcap : p.length ≤ s.cap.toNat)
      (hfit : p.length ≤ bufCap) :
    FrameEffect s (.sf p) (raiseDone (receivedSf (BitVec.ofNat 12 p.length) (s.writePbuf 0 p)))
  /-- R101. -/
  | first (total : Len) (p : Bytes6) (hc : s.ctrl = .rxWait) (hs : s.sess = .idle) (hcap : total.toNat ≤ s.cap.toNat) :
    FrameEffect s (.ff total p)
      (emitTx .txFc (encodeFC s.cfg.fill .cts s.cfg.rxBs s.cfg.rxStmin) (beginReceive total (s.writePbuf 0 p.toList)))
  /-- R102. -/
  | consecutive (p : Bytes7) (u : State) (hc : s.ctrl = .rxWait) (hs : s.sess = .awaitCons)
      (hle : s.cursor.toNat ≤ s.total.toNat) (hcap : s.cursor.toNat + s.chunk ≤ s.cap.toNat)
      (hfit : s.cursor.toNat + (p.toList.take s.chunk).length ≤ bufCap)
      (hu : Spent (advanceChunk s.chunk (s.writePbuf s.cursor.toNat (p.toList.take s.chunk))) u) :
    FrameEffect s (.cf s.seq p) (afterChunk u)
  /-- R90. -/
  | granted (bs stmin : Byte) (hc : s.ctrl = .awaitFc) :
    FrameEffect s (.fc .cts bs stmin) (continueSend (grantCredit bs stmin s))
  /-- R91. -/
  | waited (bs stmin : Byte) (hc : s.ctrl = .awaitFc) : FrameEffect s (.fc .wait bs stmin) (emitRxReq s)

section Effects
variable {s t : State}

theorem acceptRequest_effect {p : List Byte} (hc : s.ctrl = .listen) (h : acceptRequest p s = .next t) :
    FrameEffect s (.sf p) t := by
  unfold acceptRequest at h
  split at h
  · next service pid extra =>
    unfold serve at h
    split at h
    · next r hr =>
      obtain ⟨-, h⟩ := State.store_next h
      obtain ⟨h1, h20⟩ := dispatch_length hr
      have hlen : (BitVec.ofNat 12 r.length).toNat = r.length := by simp; omega
      obtain ⟨d, rfl⟩ := send_emits (by omega) h
      rw [hlen]
      exact .served service pid extra r d hc h1 h20
    · cases h
      exact .unsupported service pid extra hc
  · cases h
    exact .dropped _ _ hc

theorem fail_effect {f : TypedFrame} {k : ErrorKind} (hc : s.ctrl = .rxWait ∨ s.ctrl = .awaitFc)
    (h : fail k s = .next t) : FrameEffect s f t := by
  cases h
  exact .failed f k hc

theorem dropRequest_effect {f : TypedFrame} {k : ErrorKind} (hc : s.ctrl = .listen) (h : dropRequest k s = .next t) :
    FrameEffect s f t := by
  cases h
  exact .dropped f k hc

theorem sfAtRxWait_effect {p : List Byte} (hc : s.ctrl = .rxWait) (h : sfAtRxWait p s = .next t) :
    FrameEffect s (.sf p) t := by
  obtain ⟨hs, h⟩ | ⟨-, h⟩ := onState_next h
  · unfold receiveSf at h
    split at h
    · exact fail_effect (.inl hc) h
    · obtain ⟨hfit, h⟩ := State.store_next h
      cases h
      exact .single p hc hs (by omega) (by omega)
  · exact fail_effect (.inl hc) h

theorem ffAtRxWait_effect {total : Len} {p : Bytes6} (hc : s.ctrl = .rxWait) (h : ffAtRxWait total p s = .next t) :
    FrameEffect s (.ff total p) t := by
  obtain ⟨hs, h⟩ | ⟨-, h⟩ := onState_next h
  · unfold receiveFf at h
    split at h
    · exact fail_effect (.inl hc) h
    · next hcap =>
      obtain ⟨-, h⟩ := State.store_next h
      cases h
      exact .first total p hc hs (by omega)
  · exact fail_effect (.inl hc) h

theorem cfAtRxWait_effect {seq : Nibble} {p : Bytes7} (hc : s.ctrl = .rxWait) (h : cfAtRxWait seq p s = .next t) :
    FrameEffect s (.cf seq p) t := by
  obtain ⟨-, h⟩ | ⟨hs, h⟩ := onState_next h
  · exact fail_effect (.inl hc) h
  · unfold receiveCf at h
    split at h
    · next hseq =>
      obtain ⟨hle, h⟩ := State.withChunk_next h
      split at h
      · cases h
      · next hcap =>
        obtain ⟨hfit, h⟩ := State.store_next h
        obtain ⟨u, hu, h⟩ := spendCredit_spent h
        cases h
        rw [hseq]
        exact .consecutive p u hc hs hle (by rw [State.chunk]; omega) hfit hu
    · exact fail_effect (.inl hc) h

/-- A Flow Control at RX_WAIT fails in either STATE (R105). -/
theorem fcAtRxWait_effect {f : TypedFrame} (hc : s.ctrl = .rxWait) (h : fcAtRxWait s = .next t) : FrameEffect s f t := by
  obtain ⟨-, h⟩ | ⟨-, h⟩ := onState_next h <;> exact fail_effect (.inl hc) h

theorem execTyped_effect {f : TypedFrame} (h : execTyped f s = .next t) : FrameEffect s f t := by
  match f with
  | .sf p =>
    obtain ⟨hc, h⟩ | ⟨hc, h⟩ | ⟨hc, h⟩ := onReceive_next h
    · exact acceptRequest_effect hc h
    · exact sfAtRxWait_effect hc h
    · exact fail_effect (.inr hc) h
  | .ff total p =>
    obtain ⟨hc, h⟩ | ⟨hc, h⟩ | ⟨hc, h⟩ := onReceive_next h
    · exact dropRequest_effect hc h
    · exact ffAtRxWait_effect hc h
    · exact fail_effect (.inr hc) h
  | .cf seq p =>
    obtain ⟨hc, h⟩ | ⟨hc, h⟩ | ⟨hc, h⟩ := onReceive_next h
    · exact dropRequest_effect hc h
    · exact cfAtRxWait_effect hc h
    · exact fail_effect (.inr hc) h
  | .fc .cts bs stmin =>
    obtain ⟨hc, h⟩ | ⟨hc, h⟩ | ⟨hc, h⟩ := onReceive_next h
    · exact dropRequest_effect hc h
    · exact fcAtRxWait_effect hc h
    · cases h
      exact .granted bs stmin hc
  | .fc .wait bs stmin =>
    obtain ⟨hc, h⟩ | ⟨hc, h⟩ | ⟨hc, h⟩ := onReceive_next h
    · exact dropRequest_effect hc h
    · exact fcAtRxWait_effect hc h
    · cases h
      exact .waited bs stmin hc
  | .fc .ovf bs stmin =>
    obtain ⟨hc, h⟩ | ⟨hc, h⟩ | ⟨hc, h⟩ := onReceive_next h
    · exact dropRequest_effect hc h
    · exact fcAtRxWait_effect hc h
    · exact fail_effect (.inr hc) h
  | .invalid =>
    obtain ⟨hc, h⟩ | ⟨hc, h⟩ | ⟨hc, h⟩ := onReceive_next h
    · exact dropRequest_effect hc h
    · exact fail_effect (.inl hc) h
    · exact fail_effect (.inr hc) h

/-- What an instruction that answers a next state has done. -/
theorem exec_effect {i : Instr} (h : exec i s = .next t) : FrameEffect s i.typed t :=
  execTyped_effect (exec_eq_execTyped i s ▸ h)

end Effects

/-! ## Decoded frames -/

theorem requestRow_typed (p : List Byte) : (requestRow p).typed = .sf p := by
  unfold requestRow
  split
  · rfl
  · rfl
  · split
    · next h => obtain ⟨rfl, rfl⟩ := h; rfl
    · split
      · next h => obtain ⟨rfl, rfl⟩ := h; rfl
      · split
        · next h => obtain ⟨rfl, rfl⟩ := h; rfl
        · rfl

theorem responseRow_typed (p : List Byte) : (responseRow p).typed = .sf p := by
  unfold responseRow
  split
  · split
    · next h => obtain ⟨rfl, rfl⟩ := h; rfl
    · rfl
  · split
    · next h => obtain ⟨rfl, rfl⟩ := h; simp [Instr.typed]
    · rfl
  · rfl

theorem decodeSf_typed (v : View) (d : Frame) : (decodeSf v d).typed = typedSf d := by
  unfold decodeSf typedSf
  by_cases h0 : sfLen d = 0
  · simp [h0, Instr.typed]
  · by_cases h7 : 7 < sfLen d
    · simp [h0, h7, Instr.typed]
    · simp only [h0, h7, if_false, or_self]
      cases v with
      | frame => rfl
      | request => exact requestRow_typed _
      | response => exact responseRow_typed _

theorem decodeFf_typed (v : View) (d : Frame) : (decodeFf v d).typed = typedFf d := by
  unfold decodeFf typedFf
  split
  · rfl
  · split
    · next h =>
      obtain ⟨-, htotal, h2, h3, h4⟩ := h
      simp [Instr.typed, Frame.from2, htotal, h2, h3, h4]
    · rfl

theorem decodeFc_typed (d : Frame) : (decodeFc d).typed = typedFc d := by
  unfold decodeFc typedFc
  repeat' split
  all_goals rfl

/-- Whatever the view, the decoded row stands for the typed frame of R75. -/
theorem decode_typed (v : View) (d : Frame) : (decode v d).typed = typedFrame d := by
  unfold decode typedFrame
  split
  · exact decodeSf_typed v d
  · split
    · exact decodeFf_typed v d
    · split
      · rfl
      · split
        · exact decodeFc_typed d
        · split <;> rfl

/-- A First Frame that decodes announces 8 bytes or more (R77). -/
theorem typedFrame_ff_total {d : Frame} {total : Len} {p : Bytes6} (h : typedFrame d = .ff total p) :
    8 ≤ total.toNat := by
  unfold typedFrame at h
  split at h
  · unfold typedSf at h
    split at h <;> cases h
  · split at h
    · unfold typedFf at h
      split at h
      · cases h
      · cases h
        omega
    · split at h
      · cases h
      · split at h
        · unfold typedFc at h
          repeat' split at h
          all_goals cases h
        · cases h

/-! ## The block's moves -/

/-- What the block's turn can do, by the handshake that is outstanding (R17) and the answer it gets. -/
inductive BlockMove (s : State) : State → Prop where
  /-- R137, R141, R147. -/
  | waits : BlockMove s s
  /-- R114. -/
  | accepted (r : Request) (rest : List Request) (d : Frame) (hc : s.ctrl = .idleCmd) (hhost : s.host = r :: rest) :
    BlockMove s (emitTx .txReq d (latchCommand r (s.withHost rest)))
  /-- R124 at a transmit point. -/
  | txFailed (rest : List TxAnswer) (delay : Nat) (hc : s.ctrl.transmits = true)
      (hans : s.txAnswers = ⟨delay, false⟩ :: rest) : BlockMove s (raiseFail .linkError (s.withTxAnswers rest delay))
  /-- R115 at TX_REQ, R104 at TX_FC. -/
  | awaitsResponse (rest : List TxAnswer) (delay : Nat) (hc : s.ctrl = .txReq ∨ s.ctrl = .txFc)
      (hans : s.txAnswers = ⟨delay, true⟩ :: rest) : BlockMove s (awaitRx .rxWait s.sess (s.withTxAnswers rest delay))
  /-- R88. -/
  | singleSent (rest : List TxAnswer) (delay : Nat) (hc : s.ctrl = .txSf)
      (hans : s.txAnswers = ⟨delay, true⟩ :: rest) : BlockMove s (raiseDone (sentSf (s.withTxAnswers rest delay)))
  /-- R89. -/
  | firstSent (rest : List TxAnswer) (delay : Nat) (hc : s.ctrl = .txFf)
      (hans : s.txAnswers = ⟨delay, true⟩ :: rest) :
    BlockMove s (awaitRx .awaitFc .awaitFlow (sentFf (s.withTxAnswers rest delay)))
  /-- R97. -/
  | chunkSent (rest : List TxAnswer) (delay : Nat) (u : State) (hc : s.ctrl = .txCf)
      (hans : s.txAnswers = ⟨delay, true⟩ :: rest) (hle : s.cursor.toNat ≤ s.total.toNat)
      (hu : Spent (advanceChunk s.chunk (s.withTxAnswers rest delay)) u) : BlockMove s (continueSend u)
  /-- R96. -/
  | slept (rest : List Nat) (us : Nat) (d : Frame) (hc : s.ctrl = .sleep) (htimer : s.timer = us :: rest)
      (hdue : s.sleepDue ≤ s.now + us) : BlockMove s (emitTx .txCf d (s.withTimer rest us))
  /-- R116, R118 and R90 to R94: a frame with RX_ID is decoded and executed. -/
  | received (d : Frame) (rest : List LinkAnswer) (delay : Nat) (t : State) (hv : s.ctrl.view ≠ none)
      (hlink : s.link = ⟨delay, .frame s.cfg.rxId d⟩ :: rest)
      (ht : FrameEffect (s.withLink rest delay) (typedFrame d) t) : BlockMove s t
  /-- R113. -/
  | foreign (id : CanId) (d : Frame) (rest : List LinkAnswer) (delay : Nat) (hv : s.ctrl.view ≠ none)
      (hlink : s.link = ⟨delay, .frame id d⟩ :: rest) (hid : id ≠ s.cfg.rxId) :
    BlockMove s (filtered (s.withLink rest delay))
  /-- R120. -/
  | linkErrorDropped (rest : List LinkAnswer) (delay : Nat) (hc : s.ctrl = .listen)
      (hlink : s.link = ⟨delay, .err⟩ :: rest) : BlockMove s (drop .linkError (s.withLink rest delay))
  /-- R124, R125 at a receive point of a session. -/
  | linkFailed (k : ErrorKind) (e : LinkEvent) (rest : List LinkAnswer) (delay : Nat)
      (hc : s.ctrl = .rxWait ∨ s.ctrl = .awaitFc) (hlink : s.link = ⟨delay, e⟩ :: rest) :
    BlockMove s (raiseFail k (s.withLink rest delay))

section Moves
variable {s t : State}

theorem commandStep_move (hc : s.ctrl = .idleCmd) (h : commandStep s = .next t) : BlockMove s t := by
  unfold commandStep at h
  split at h
  · cases h
    exact .waits
  · next r rest hhost =>
    obtain ⟨d, rfl⟩ := transmit_emits (encodeSF_ne_malformed (by simp) (by simp)) h
    exact .accepted r rest d hc hhost

/-- At a transmit point, the move is a wait, a failure, or what the point's rule for `TxOk` does. -/
theorem txStep_move {txOk : State → Result} (hc : s.ctrl.transmits = true)
    (hok : ∀ rest delay, s.txAnswers = ⟨delay, true⟩ :: rest → txOk (s.withTxAnswers rest delay) = .next t → BlockMove s t)
    (h : txStep txOk s = .next t) : BlockMove s t := by
  unfold txStep at h
  split at h
  · cases h
    exact .waits
  · next a rest hans =>
    obtain ⟨delay, ok⟩ := a
    cases ok with
    | true => exact hok rest delay hans h
    | false =>
      cases h
      exact .txFailed rest delay hc hans

theorem sleepStep_move (hc : s.ctrl = .sleep) (h : sleepStep s = .next t) : BlockMove s t := by
  unfold sleepStep at h
  split at h
  · cases h
    exact .waits
  · next us rest htimer =>
    split at h
    · cases h
    · obtain ⟨-, h⟩ := State.withChunk_next h
      obtain ⟨p, -, h⟩ := State.load_next h
      obtain ⟨d, rfl⟩ := transmit_emits encodeCF_ne_malformed h
      exact .slept rest us d hc htimer (by omega)

theorem view_cases (hv : s.ctrl.view ≠ none) : s.ctrl = .listen ∨ s.ctrl = .rxWait ∨ s.ctrl = .awaitFc := by
  cases hc : s.ctrl <;> simp [hc, Ctrl.view] at hv ⊢

theorem linkStep_move {v : View} (hv : s.ctrl.view ≠ none) (h : linkStep v s = .next t) : BlockMove s t := by
  have hpoint := view_cases hv
  unfold linkStep at h
  split at h
  · cases h
    exact .waits
  · next delay id d rest hlink =>
    unfold frameStep at h
    split at h
    · next hid =>
      exact .received d rest delay t hv (hid ▸ hlink) (decode_typed v d ▸ exec_effect h)
    · next hid =>
      cases h
      exact .foreign id d rest delay hv hlink hid
  · next delay rest hlink =>
    unfold rxErrStep at h
    split at h
    · next hc =>
      cases h
      exact .linkErrorDropped rest delay hc hlink
    · next hc =>
      cases h
      exact .linkFailed .linkError _ rest delay (hpoint.resolve_left hc) hlink
  · next delay rest hlink =>
    unfold timeoutStep at h
    split at h
    · next hallowed =>
      obtain ⟨-, hc, -⟩ := hallowed
      cases h
      exact .linkFailed .timeout _ rest delay (hpoint.resolve_left hc) hlink
    · cases h

/-- What the block's turn, when it answers a next state, has done. -/
theorem blockStep_move (h : blockStep s = .next t) : BlockMove s t := by
  cases hc : s.ctrl <;> simp only [blockStep, hc] at h
  case idleCmd => exact commandStep_move hc h
  case txReq =>
    refine txStep_move (by simp [hc, Ctrl.transmits]) (fun rest delay hans hok => ?_) h
    cases hok
    exact .awaitsResponse rest delay (.inl hc) hans
  case rxWait => exact linkStep_move (by simp [hc, Ctrl.view]) h
  case txFc =>
    refine txStep_move (by simp [hc, Ctrl.transmits]) (fun rest delay hans hok => ?_) h
    cases hok
    exact .awaitsResponse rest delay (.inr hc) hans
  case listen => exact linkStep_move (by simp [hc, Ctrl.view]) h
  case txSf =>
    refine txStep_move (by simp [hc, Ctrl.transmits]) (fun rest delay hans hok => ?_) h
    cases hok
    exact .singleSent rest delay hc hans
  case txFf =>
    refine txStep_move (by simp [hc, Ctrl.transmits]) (fun rest delay hans hok => ?_) h
    cases hok
    exact .firstSent rest delay hc hans
  case awaitFc => exact linkStep_move (by simp [hc, Ctrl.view]) h
  case sleep => exact sleepStep_move hc h
  case txCf =>
    refine txStep_move (by simp [hc, Ctrl.transmits]) (fun rest delay hans hok => ?_) h
    obtain ⟨hle, hok⟩ := State.withChunk_next hok
    obtain ⟨u, hu, hok⟩ := spendCredit_spent hok
    cases hok
    exact .chunkSent rest delay u hc hans hle hu
  case halt =>
    cases h
    exact .waits

end Moves

end Sys2Proof.Machine
end

section
/-! O43 and O32: a step at a receive point runs the decoded frame, and what no frame changes (R38). -/

namespace Sys2Proof.Machine

/-- Settles O43: the three receive points are the ones with a view, and each of them hands the link's answer to `exec`. -/
theorem stepRunsDecodedFrame : Obligations.StepRunsDecodedFrame := by
  intro delay d rest v s hagenda hlink hview
  have hblock : step s = blockStep s := by simp only [step, turnStep, hagenda]
  have hpoint : blockStep s = linkStep v s := by
    cases hc : s.ctrl <;> simp only [hc, Ctrl.view, Option.some.injEq, reduceCtorEq] at hview <;>
      simp only [blockStep, hc, ← hview]
  have hframe : linkStep v s = exec (decode v d) (s.withLink rest delay) := by
    simp only [linkStep, hlink, frameStep, State.withLink_cfg, if_true]
  exact hblock.trans (hpoint.trans hframe)

/-! ## What no frame changes -/

/-- What no rule for a frame writes: the parameters, CAP, the DATA port, the agents' lists and the time. -/
def State.outside (s : State) :
    Config × Len × BitVec 16 × Byte × List Request × List LinkAnswer × List TxAnswer × List Nat × List Turn × Nat :=
  (s.cfg, s.cap, s.rpm, s.speed, s.host, s.link, s.txAnswers, s.timer, s.agenda, s.now)

/-- SERVICE, PID and DIR. -/
def State.request (s : State) : Byte × Byte × Direction := (s.service, s.pid, s.dir)

/-- TOTAL, CURSOR and SEQ. -/
def State.progress (s : State) : Len × Len × Nibble := (s.total, s.cursor, s.seq)

/-- What spending a credit, `Continue()` and the end of R102 leave alone. -/
structure EndKeeps (s t : State) : Prop where
  outside : t.outside = s.outside
  request : t.request = s.request
  progress : t.progress = s.progress
  failCode : t.failCode = s.failCode
  resultLen : t.status ≠ .done → t.resultLen = s.resultLen

section Ends
variable {s t : State}

/-- An update that touches none of these registers. -/
theorem EndKeeps.of_eq (ho : t.outside = s.outside) (hr : t.request = s.request) (hp : t.progress = s.progress)
    (hf : t.failCode = s.failCode) (hl : t.resultLen = s.resultLen) : EndKeeps s t :=
  ⟨ho, hr, hp, hf, fun _ => hl⟩

theorem Spent.resultLen (h : Spent s t) : t.resultLen = s.resultLen := by
  cases h <;> rfl

theorem Spent.keeps (h : Spent s t) : EndKeeps s t := by
  cases h <;> exact .of_eq rfl rfl rfl rfl rfl

theorem raiseDone_keeps (s : State) : EndKeeps s (raiseDone s) where
  outside := by simp [State.outside]
  request := by simp [State.request]
  progress := by simp [State.progress]
  failCode := raiseDone_failCode s
  resultLen := fun h => absurd (raiseDone_status s) h

theorem afterChunk_keeps (s : State) : EndKeeps s (afterChunk s) := by
  obtain ⟨-, he⟩ | ⟨-, -, he⟩ | ⟨-, -, he⟩ := afterChunk_cases s <;> rw [he]
  · exact raiseDone_keeps s
  · exact .of_eq rfl rfl rfl rfl rfl
  · exact .of_eq rfl rfl rfl rfl rfl

theorem continueSend_keeps (s : State) : EndKeeps s (continueSend s) := by
  obtain ⟨-, he⟩ | ⟨-, -, he⟩ | ⟨-, -, he⟩ := continueSend_cases s <;> rw [he]
  · exact raiseDone_keeps s
  · exact .of_eq rfl rfl rfl rfl rfl
  · exact .of_eq rfl rfl rfl rfl rfl

end Ends

/-- BS, STMIN, CREDIT and CREDIT_INF. -/
def State.creditRegs (s : State) : Byte × Byte × Byte × Bool := (s.bs, s.stmin, s.credit, s.creditInf)

/-- The register frame of R38's table, by the control point that receives the frame. -/
structure FrameKeeps (s t : State) : Prop where
  outside : t.outside = s.outside
  request : s.ctrl ≠ .listen → t.request = s.request
  seq : s.ctrl ≠ .rxWait → t.seq = s.seq
  creditRegs : s.ctrl ≠ .awaitFc → s.ctrl ≠ .rxWait → t.creditRegs = s.creditRegs
  message : s.ctrl = .awaitFc → t.total = s.total ∧ t.cursor = s.cursor
  resultLen : t.status ≠ .done → t.resultLen = s.resultLen
  failCode : t.status ≠ .failed → t.failCode = s.failCode

section Frame
variable {s t : State}

/-- At LISTEN the request, the message and PBUF are all that can change. -/
theorem FrameKeeps.of_listen (hc : s.ctrl = .listen) (ho : t.outside = s.outside) (hseq : t.seq = s.seq)
    (hcr : t.creditRegs = s.creditRegs) (hl : t.resultLen = s.resultLen)
    (hf : t.status ≠ .failed → t.failCode = s.failCode) : FrameKeeps s t :=
  ⟨ho, fun hne => absurd hc hne, fun _ => hseq, fun _ _ => hcr, fun ha => by simp [hc] at ha, fun _ => hl, hf⟩

/-- At RX_WAIT the receiver's registers can change. -/
theorem FrameKeeps.of_rxWait (hc : s.ctrl = .rxWait) (ho : t.outside = s.outside) (hr : t.request = s.request)
    (hl : t.status ≠ .done → t.resultLen = s.resultLen) (hf : t.failCode = s.failCode) : FrameKeeps s t :=
  ⟨ho, fun _ => hr, fun hne => absurd hc hne, fun _ hne => absurd hc hne, fun ha => by simp [hc] at ha, hl, fun _ => hf⟩

/-- At AWAIT_FC the credit can change, and how far the message is does not. -/
theorem FrameKeeps.of_awaitFc {u : State} (hc : s.ctrl = .awaitFc) (hu : EndKeeps s u) : FrameKeeps s u := by
  obtain ⟨ht, hcur, hseq⟩ : u.total = s.total ∧ u.cursor = s.cursor ∧ u.seq = s.seq := by
    simpa [State.progress] using hu.progress
  exact ⟨hu.outside, fun _ => hu.request, fun _ => hseq, fun hne => absurd hc hne, fun _ => ⟨ht, hcur⟩, hu.resultLen,
    fun _ => hu.failCode⟩

theorem raiseFail_frameKeeps (s : State) (k : ErrorKind) : FrameKeeps s (raiseFail k s) where
  outside := by simp [State.outside]
  request := by simp [State.request]
  seq := by simp
  creditRegs := by simp [State.creditRegs]
  message := by simp
  resultLen := by simp
  failCode := by simp

theorem FrameEffect.keeps {f : TypedFrame} (he : FrameEffect s f t) : FrameKeeps s t := by
  cases he with
  | dropped _ k hc => exact .of_listen hc rfl rfl rfl rfl fun hne => absurd rfl hne
  | unsupported service pid extra hc => exact .of_listen hc rfl rfl rfl rfl fun hne => absurd rfl hne
  | served service pid extra r d hc => exact .of_listen hc rfl rfl rfl rfl fun _ => rfl
  | failed _ k hc => exact raiseFail_frameKeeps s k
  | single p hc =>
    have hend := raiseDone_keeps (receivedSf (BitVec.ofNat 12 p.length) (s.writePbuf 0 p))
    exact .of_rxWait hc hend.outside hend.request hend.resultLen hend.failCode
  | first total p hc => exact .of_rxWait hc rfl rfl (fun _ => rfl) rfl
  | consecutive p u hc hs hle hcap hfit hu =>
    have hend := afterChunk_keeps u
    have hspent := hu.keeps
    exact .of_rxWait hc (hend.outside.trans hspent.outside) (hend.request.trans hspent.request)
      (fun hne => (hend.resultLen hne).trans hu.resultLen) (hend.failCode.trans hspent.failCode)
  | granted bs stmin hc =>
    have hend := continueSend_keeps (grantCredit bs stmin s)
    exact .of_awaitFc hc ⟨hend.outside, hend.request, hend.progress, hend.failCode, hend.resultLen⟩
  | waited bs stmin hc => exact .of_awaitFc hc (.of_eq rfl rfl rfl rfl rfl)

end Frame

/-- Settles O32: by what the frame's rule can answer. -/
theorem framesKeepOtherRegisters : Obligations.FramesKeepOtherRegisters := by
  intro i s t h
  obtain ⟨ho, hr, hseq, hcr, hmsg, hl, hf⟩ := (exec_effect h).keeps
  simp only [State.outside, State.request, State.creditRegs, Prod.mk.injEq] at ho hr hcr
  obtain ⟨hcfg, hcap, hrpm, hspeed, hagents⟩ := ho
  exact ⟨⟨hcfg, hcap, hrpm, hspeed⟩, hagents, hr, hseq, hcr, hmsg, hl, hf⟩

end Sys2Proof.Machine
end

section
/-! O46 and O47: the invariant holds after reset and every step keeps it. The invariant is taken apart by the phases of R17's table
(at rest, a tester's transaction, a reception between its FF and its last CF, a simulator's response, a message in progress); each
phase has a lemma that reads it off the invariant and one that gives the invariant back, and each move of `FrameEffect` and
`BlockMove` takes one phase to another. -/

namespace Sys2Proof.Machine

/-! ## What the invariant reads -/

/-- A list write fills its own offsets and empties none. -/
theorem memRead_memWriteList_isSome (m : List Host.Cell) (a x : Nat) (bs : List Byte) :
    (memRead (memWriteList m a bs) x).isSome = true ↔
      (a ≤ x ∧ x < a + bs.length) ∨ (memRead m x).isSome = true := by
  induction bs generalizing m a with
  | nil =>
    simp only [memWriteList, List.length_nil]
    exact ⟨.inr, fun h => h.resolve_left (by omega)⟩
  | cons b bs ih =>
    rw [memWriteList, ih, memRead_memWrite, List.length_cons]
    by_cases hx : x = a
    · simp [hx]
    · rw [if_neg hx]
      exact or_congr_left (by omega)

/-- The state with everything the invariant does not read taken away. -/
def State.invPart (s : State) : State :=
  { State.blank s.cfg with
    ctrl := s.ctrl, sess := s.sess, dir := s.dir, total := s.total, cursor := s.cursor, seq := s.seq, credit := s.credit,
    creditInf := s.creditInf, bs := s.bs, stmin := s.stmin, cap := s.cap, resultLen := s.resultLen, status := s.status,
    failCode := s.failCode, txf := s.txf, pbuf := s.pbuf,
    written := { s.written with service := false, pid := false, dir := false } }

theorem invPart_inv (s : State) : s.invPart.Inv ↔ s.Inv := by
  constructor <;> rintro ⟨⟩ <;> constructor <;> assumption

/-- The ports, the agents' lists, the times, SERVICE and PID play no part in the invariant. -/
theorem State.Inv.congr {s t : State} (h : s.Inv) (e : t.invPart = s.invPart) : t.Inv :=
  (invPart_inv t).1 (e ▸ (invPart_inv s).2 h)

theorem readsWritten_iff (s : State) :
    s.readsWritten = true ↔
      (s.ctrl.transmits = true → s.written.txf = true) ∧
      (s.ctrl = .txReq ∨ s.ctrl = .rxWait ∨ s.ctrl = .txFc → s.written.cap = true) ∧
      (s.midReceive = true ∨ s.inSend = true → s.written.total = true ∧ s.written.cursor = true) ∧
      (s.midReceive = true ∨ s.midSend = true → s.written.seq = true) ∧
      (s.midReceive = true ∨ s.ctrl = .sleep ∨ s.ctrl = .txCf →
        s.written.credit = true ∧ s.written.creditInf = true ∧ s.written.bs = true ∧ s.written.stmin = true) ∧
      (s.resultReady = true → s.written.resultLen = true) := by
  simp only [State.readsWritten, Bool.and_eq_true, Bool.or_eq_true, Bool.not_eq_true', ← Bool.not_eq_true, beq_iff_eq,
    ← imp_iff_not_or, and_assoc, or_assoc]

/-! ## The phases -/

/-- Every offset below `n` holds a byte. -/
def State.HasBytes (s : State) (n : Nat) : Prop := ∀ a < n, (memRead s.pbuf a).isSome = true

/-- R30: while a `Tx` is outstanding, TXF is written and holds the block's identifier. -/
def State.TxfHeld (s : State) : Prop := s.ctrl.transmits = true → s.txf.id = s.cfg.txId ∧ s.written.txf = true

/-- CREDIT, CREDIT_INF, BS and STMIN have been written. -/
def State.CreditWritten (s : State) : Prop :=
  s.written.credit = true ∧ s.written.creditInf = true ∧ s.written.bs = true ∧ s.written.stmin = true

/-- What holds at every control point. -/
structure State.Tidy (s : State) : Prop where
  pbufForm : memWf s.pbuf = true
  failCodeLegal : s.failCode.toNat ≤ 8
  cursorInTotal : s.cursor.toNat ≤ s.total.toNat

/-- A tester's transaction. -/
structure State.TesterBusy (s : State) : Prop extends s.Tidy where
  role : s.cfg.role = .tester
  busy : s.status = .busy
  dir : s.dir = .receiving
  capWritten : s.written.cap = true

/-- A tester's transaction from the First Frame on. -/
structure State.Receiving (s : State) : Prop extends s.TesterBusy where
  inCap : s.total.toNat ≤ s.cap.toNat
  blockSize : s.bs = s.cfg.rxBs
  separation : s.stmin = s.cfg.rxStmin
  unlimited : s.creditInf = creditInfOf s.bs
  copied : s.HasBytes s.cursor.toNat
  totalWritten : s.written.total = true
  cursorWritten : s.written.cursor = true
  creditWritten : s.CreditWritten

/-- A simulator's response. -/
structure State.Responding (s : State) : Prop extends s.Tidy where
  role : s.cfg.role = .simulator
  busy : s.status = .busy
  dir : s.dir = .sending
  loaded : s.HasBytes s.total.toNat
  totalWritten : s.written.total = true
  cursorWritten : s.written.cursor = true

/-- Between an FF and the last CF, in either role: whole chunks are done, and SEQ numbers the next one. -/
structure State.MidMessage (s : State) : Prop where
  afterFirst : 6 ≤ s.cursor.toNat
  notLast : s.cursor.toNat < s.total.toNat
  long : 8 ≤ s.total.toNat
  wholeChunks : (s.cursor.toNat - 6) % 7 = 0
  numbered : s.seq.toNat = ((s.cursor.toNat - 6) / 7 + 1) % 16
  seqWritten : s.written.seq = true

/-! ## From the invariant to the phases -/

section FromInv
variable {s : State}

theorem State.Inv.tidy (h : s.Inv) : s.Tidy := ⟨h.pbufForm, h.failCodeLegal, h.cursorInTotal⟩

theorem State.Inv.testerBusy (h : s.Inv) (hc : s.ctrl = .txReq ∨ s.ctrl = .rxWait ∨ s.ctrl = .txFc) : s.TesterBusy := by
  have hin : s.ctrl.inTransaction = true := by rcases hc with hc | hc | hc <;> rw [hc] <;> rfl
  have hrole : s.cfg.role = .tester := by
    have := h.ctrlInRole
    rcases hc with hc | hc | hc <;> simpa [hc, Ctrl.inRole] using this
  obtain ⟨-, hcap, -⟩ := (readsWritten_iff s).1 h.marks
  exact { h.tidy with
    role := hrole
    busy := h.busyInTransaction.2 hin
    dir := by rw [h.direction hin, if_pos hrole]
    capWritten := hcap hc }

theorem midReceive_cases (hm : s.midReceive = true) : s.ctrl = .rxWait ∨ s.ctrl = .txFc := by
  simp only [State.midReceive, Bool.or_eq_true, Bool.and_eq_true, beq_iff_eq] at hm
  exact hm.symm.imp_left And.left

theorem State.Inv.receiving (h : s.Inv) (hm : s.midReceive = true) : s.Receiving := by
  obtain ⟨hcap, hbs, hstmin, hinf⟩ := h.receiverRegs hm
  obtain ⟨-, -, hsess, -, hcredit, -⟩ := (readsWritten_iff s).1 h.marks
  obtain ⟨htotal, hcursor⟩ := hsess (.inl hm)
  exact { h.testerBusy (.inr (midReceive_cases hm)) with
    inCap := hcap
    blockSize := hbs
    separation := hstmin
    unlimited := hinf
    copied := h.receiveCopied hm
    totalWritten := htotal
    cursorWritten := hcursor
    creditWritten := hcredit (.inl hm) }

theorem State.Inv.inMessage (h : s.Inv) (hm : s.midReceive = true ∨ s.midSend = true) : s.MidMessage := by
  obtain ⟨hsix, hlt, height, hmod, hseq⟩ := h.midMessage hm
  obtain ⟨-, -, -, hw, -⟩ := (readsWritten_iff s).1 h.marks
  exact ⟨hsix, hlt, height, hmod, hseq, hw hm⟩

theorem inSend_cases (hm : s.inSend = true) :
    s.ctrl.inTransaction = true ∧ ∀ r, s.ctrl.inRole r = true → r = .simulator := by
  cases hc : s.ctrl <;> simp [State.inSend, State.midSend, hc, Ctrl.inTransaction, Ctrl.inRole] at hm ⊢

theorem State.Inv.responding (h : s.Inv) (hm : s.inSend = true) : s.Responding := by
  obtain ⟨hin, hsim⟩ := inSend_cases hm
  have hrole := hsim _ h.ctrlInRole
  obtain ⟨-, -, hsess, -⟩ := (readsWritten_iff s).1 h.marks
  obtain ⟨htotal, hcursor⟩ := hsess (.inr hm)
  exact { h.tidy with
    role := hrole
    busy := h.busyInTransaction.2 hin
    dir := by rw [h.direction hin, hrole, if_neg nofun]
    loaded := h.sendLoaded hm
    totalWritten := htotal
    cursorWritten := hcursor }

end FromInv

/-! ## From the phases to the invariant -/

section ToInv
variable {s : State}

/-- Outside a transaction only the latched outcome is left to show. -/
theorem State.Tidy.inv_of_rest (h : s.Tidy) (hc : s.ctrl.inTransaction = false) (hrole : s.ctrl.inRole s.cfg.role = true)
    (hsess : s.sess = .idle) (hbusy : s.status ≠ .busy) (hfailed : s.status = .failed → s.failCode ≠ 0)
    (hresult : s.resultReady = true → s.resultLen = s.total ∧ s.HasBytes s.resultLen.toNat ∧ s.written.resultLen = true) :
    s.Inv := by
  have hpoint : s.ctrl = .idleCmd ∨ s.ctrl = .listen ∨ s.ctrl = .halt := by
    cases hs : s.ctrl <;> simp [hs, Ctrl.inTransaction] at hc ⊢
  have htx : s.ctrl.transmits = false := by rcases hpoint with hs | hs | hs <;> rw [hs] <;> rfl
  have hrec : s.midReceive = false := by rcases hpoint with hs | hs | hs <;> simp [State.midReceive, hs]
  have hmid : s.midSend = false := by rcases hpoint with hs | hs | hs <;> simp [State.midSend, hs]
  have hsend : s.inSend = false := by rcases hpoint with hs | hs | hs <;> simp [State.inSend, hmid, hs]
  exact {
    pbufForm := h.pbufForm
    ctrlInRole := hrole
    stateAgrees := by rcases hpoint with hs | hs | hs <;> rw [hs, hsess] <;> rfl
    failCodeLegal := h.failCodeLegal
    failedHasCode := hfailed
    busyInTransaction := by simp [hbusy, hc]
    direction := by simp [hc]
    cursorInTotal := h.cursorInTotal
    responseStart := by rcases hpoint with hs | hs | hs <;> simp [hs]
    midMessage := by simp [hrec, hmid]
    receiverRegs := by simp [hrec]
    creditLeft := by rcases hpoint with hs | hs | hs <;> simp [hrec, hs]
    sendLoaded := by simp [hsend]
    receiveCopied := by simp [hrec]
    resultCopied := fun hr => ⟨(hresult hr).1, (hresult hr).2.1⟩
    txfIdentifier := by simp [htx]
    marks := (readsWritten_iff s).2 ⟨by simp [htx], by rcases hpoint with hs | hs | hs <;> simp [hs],
      by simp [hrec, hsend], by simp [hrec, hmid], by rcases hpoint with hs | hs | hs <;> simp [hrec, hs],
      fun hr => (hresult hr).2.2⟩ }

/-- In a transaction, the clauses of the invariant by the phases that the control point is in. -/
theorem State.Tidy.inv_of_busy (h : s.Tidy) (hin : s.ctrl.inTransaction = true)
    (hrole : s.ctrl.inRole s.cfg.role = true) (hsess : s.ctrl.allowsState s.sess = true) (hbusy : s.status = .busy)
    (hdir : s.dir = if s.cfg.role = .tester then .receiving else .sending)
    (hstart : (s.ctrl = .txSf → 1 ≤ s.total.toNat ∧ s.total.toNat ≤ 7) ∧ (s.ctrl = .txFf → 8 ≤ s.total.toNat))
    (hcap : s.ctrl = .txReq ∨ s.ctrl = .rxWait ∨ s.ctrl = .txFc → s.written.cap = true)
    (hrec : s.midReceive = true → s.Receiving) (hsend : s.inSend = true → s.Responding)
    (hmsg : s.midReceive = true ∨ s.midSend = true → s.MidMessage)
    (hcredit : s.midReceive = true ∨ s.ctrl = .sleep ∨ s.ctrl = .txCf → s.creditExhausted = false ∧ s.CreditWritten)
    (htx : s.TxfHeld) : s.Inv := by
  have hres : s.resultReady = false := by simp [State.resultReady, hbusy]
  have hsessionWritten (hm : s.midReceive = true ∨ s.inSend = true) :
      s.written.total = true ∧ s.written.cursor = true := by
    rcases hm with hm | hm
    · exact ⟨(hrec hm).totalWritten, (hrec hm).cursorWritten⟩
    · exact ⟨(hsend hm).totalWritten, (hsend hm).cursorWritten⟩
  exact {
    h with
    ctrlInRole := hrole
    stateAgrees := hsess
    failedHasCode := by simp [hbusy]
    busyInTransaction := by simp [hbusy, hin]
    direction := fun _ => hdir
    responseStart := hstart
    midMessage := fun hm =>
      have hmid := hmsg hm
      ⟨hmid.afterFirst, hmid.notLast, hmid.long, hmid.wholeChunks, hmid.numbered⟩
    receiverRegs := fun hm => ⟨(hrec hm).inCap, (hrec hm).blockSize, (hrec hm).separation, (hrec hm).unlimited⟩
    creditLeft := fun hm => (hcredit hm).1
    sendLoaded := fun hm => (hsend hm).loaded
    receiveCopied := fun hm => (hrec hm).copied
    resultCopied := by simp [hres]
    txfIdentifier := fun ht => (htx ht).1
    marks := (readsWritten_iff s).2 ⟨fun ht => (htx ht).2, hcap, hsessionWritten, fun hm => (hmsg hm).seqWritten,
      fun hm => (hcredit hm).2, by simp [hres]⟩ }

/-- In a tester's transaction before the First Frame. -/
theorem State.TesterBusy.inv (h : s.TesterBusy) (hc : s.ctrl = .txReq ∨ s.ctrl = .rxWait) (hsess : s.sess = .idle)
    (htx : s.TxfHeld) : s.Inv := by
  have hdir : s.dir = if s.cfg.role = .tester then .receiving else .sending := by rw [if_pos h.role, h.dir]
  have hcap (_ : s.ctrl = .txReq ∨ s.ctrl = .rxWait ∨ s.ctrl = .txFc) := h.capWritten
  rcases hc with hc | hc <;>
    exact h.inv_of_busy (by rw [hc]; rfl) (by rw [hc, h.role]; rfl) (by rw [hc, hsess]; rfl) h.busy hdir (by simp [hc])
      hcap (by simp [State.midReceive, hc, hsess]) (by simp [State.inSend, State.midSend, hc])
      (by simp [State.midReceive, State.midSend, hc, hsess]) (by simp [State.midReceive, hc, hsess]) htx

/-- In a tester's transaction from the First Frame on. -/
theorem State.Receiving.inv (h : s.Receiving) (hmsg : s.MidMessage) (hc : s.ctrl = .rxWait ∨ s.ctrl = .txFc)
    (hsess : s.sess = .awaitCons) (hcredit : s.creditExhausted = false) (htx : s.TxfHeld) : s.Inv := by
  have hdir : s.dir = if s.cfg.role = .tester then .receiving else .sending := by rw [if_pos h.role, h.dir]
  rcases hc with hc | hc <;>
    exact h.inv_of_busy (by rw [hc]; rfl) (by rw [hc, h.role]; rfl) (by rw [hc, hsess]; rfl) h.busy hdir (by simp [hc])
      (fun _ => h.capWritten) (fun _ => h) (by simp [State.inSend, State.midSend, hc]) (fun _ => hmsg)
      (fun _ => ⟨hcredit, h.creditWritten⟩) htx

/-- In a simulator's response: the SF or FF is on its way, or the message is in progress. -/
theorem State.Responding.inv (h : s.Responding) (hsend : s.inSend = true) (hsess : s.ctrl.allowsState s.sess = true)
    (hstart : (s.ctrl = .txSf → 1 ≤ s.total.toNat ∧ s.total.toNat ≤ 7) ∧ (s.ctrl = .txFf → 8 ≤ s.total.toNat))
    (hmsg : s.midSend = true → s.MidMessage)
    (hcredit : s.ctrl = .sleep ∨ s.ctrl = .txCf → s.creditExhausted = false ∧ s.CreditWritten) (htx : s.TxfHeld) :
    s.Inv := by
  have hdir : s.dir = if s.cfg.role = .tester then .receiving else .sending := by rw [h.role, if_neg nofun, h.dir]
  have hpoint : s.ctrl = .txSf ∨ s.ctrl = .txFf ∨ s.ctrl = .awaitFc ∨ s.ctrl = .sleep ∨ s.ctrl = .txCf := by
    cases hc : s.ctrl <;> simp [State.inSend, State.midSend, hc] at hsend ⊢
  have hrec : s.midReceive = false := by rcases hpoint with hc | hc | hc | hc | hc <;> simp [State.midReceive, hc]
  have hrole : s.ctrl.inRole s.cfg.role = true := by
    rcases hpoint with hc | hc | hc | hc | hc <;> rw [hc, h.role] <;> rfl
  exact h.inv_of_busy (inSend_cases hsend).1 hrole hsess h.busy hdir hstart
    (by rcases hpoint with hc | hc | hc | hc | hc <;> simp [hc]) (by simp [hrec]) (fun _ => h)
    (by simpa [hrec] using hmsg) (by simpa [hrec] using hcredit) htx

end ToInv

end Sys2Proof.Machine
end

section
/-! O46 and O47, continued: each move keeps the invariant. -/

namespace Sys2Proof.Machine

/-! ## The ends of a session, and reset -/

theorem errorKind_code_legal (k : ErrorKind) : k.code.toNat ≤ 8 ∧ k.code ≠ 0 := by
  cases k <;> decide

section Ends
variable {s : State}

theorem State.Tidy.raiseFail_inv (h : s.Tidy) (k : ErrorKind) : (raiseFail k s).Inv := by
  have htidy : (raiseFail k s).Tidy :=
    ⟨by simpa using h.pbufForm, by simpa using (errorKind_code_legal k).1, by simpa using h.cursorInTotal⟩
  refine htidy.inv_of_rest ?_ ?_ (by simp) (by simp) (by simpa using (errorKind_code_legal k).2)
    (by simp [State.resultReady])
  all_goals cases hr : s.cfg.role <;> simp [hr, Ctrl.inTransaction, Ctrl.inRole]

theorem State.Tidy.raiseDone_inv (h : s.Tidy) (hbytes : s.cfg.role = .tester → s.HasBytes s.total.toNat) :
    (raiseDone s).Inv := by
  have htidy : (raiseDone s).Tidy :=
    ⟨by simpa using h.pbufForm, by simpa using h.failCodeLegal, by simpa using h.cursorInTotal⟩
  refine htidy.inv_of_rest ?_ ?_ (by simp) (by simp) (by simp) fun hres => ?_
  case refine_3 =>
    have hr : s.cfg.role = .tester := by simpa [State.resultReady] using hres
    simpa [hr, State.HasBytes] using hbytes hr
  all_goals cases hr : s.cfg.role <;> simp [hr, Ctrl.inTransaction, Ctrl.inRole]

theorem State.Inv.drop (h : s.Inv) (hc : s.ctrl = .listen) (k : ErrorKind) : (drop k s).Inv := by
  have htidy : (Machine.drop k s).Tidy := { h.tidy with failCodeLegal := (errorKind_code_legal k).1 }
  have hsess : s.sess = .idle := by simpa [hc, Ctrl.allowsState] using h.stateAgrees
  have hrole : s.cfg.role = .simulator := by simpa [hc, Ctrl.inRole] using h.ctrlInRole
  exact htidy.inv_of_rest (by simp [hc, Ctrl.inTransaction]) h.ctrlInRole hsess (by simp)
    (fun _ => (errorKind_code_legal k).2) (by simp [State.resultReady, hrole])

/-- The registers a reset clears, whatever the exit (R40, R138). -/
theorem bootFrom_regs (s : State) (linkOk : Bool) :
    (s.bootFrom linkOk).pbuf = [] ∧ (s.bootFrom linkOk).failCode = 0 ∧ (s.bootFrom linkOk).cursor = 0 ∧
      (s.bootFrom linkOk).sess = .idle ∧ (s.bootFrom linkOk).status = .none := by
  unfold State.bootFrom
  split <;> exact ⟨rfl, rfl, rfl, rfl, rfl⟩

/-- A reset ends at HALT, or where the role waits (R139). -/
theorem bootFrom_ctrl (s : State) (linkOk : Bool) :
    (s.bootFrom linkOk).ctrl.inTransaction = false ∧
      (s.bootFrom linkOk).ctrl.inRole (s.bootFrom linkOk).cfg.role = true := by
  unfold State.bootFrom
  split
  · exact ⟨rfl, rfl⟩
  · next hr => simp [hr, Ctrl.inTransaction, Ctrl.inRole]
  · next hr => simp [hr, Ctrl.inTransaction, Ctrl.inRole]

/-- After a reset nothing is left of the session (R40, R138, R139). -/
theorem bootFrom_inv (s : State) (linkOk : Bool) : (s.bootFrom linkOk).Inv := by
  obtain ⟨hpbuf, hcode, hcursor, hsess, hstatus⟩ := bootFrom_regs s linkOk
  obtain ⟨hrest, hrole⟩ := bootFrom_ctrl s linkOk
  have htidy : (s.bootFrom linkOk).Tidy := ⟨by rw [hpbuf]; rfl, by simp [hcode], by simp [hcursor]⟩
  exact htidy.inv_of_rest hrest hrole hsess (by simp [hstatus]) (by simp [hstatus])
    (by simp [State.resultReady, hstatus])

end Ends

/-! ## A chunk and its credit -/

section Chunk
variable {s u : State}

theorem State.MidMessage.spent (h : s.MidMessage) (hu : Spent s u) : u.MidMessage := by
  cases hu with
  | unlimited => exact h
  | finite => exact { h with }

theorem State.Receiving.setCredit (h : s.Receiving) (v : Byte) : (setCredit v s).Receiving :=
  { h with creditWritten := ⟨rfl, h.creditWritten.2⟩ }

theorem State.Receiving.spent (h : s.Receiving) (hu : Spent s u) : u.Receiving := by
  cases hu with
  | unlimited => exact h
  | finite => exact h.setCredit _

theorem State.Responding.spent (h : s.Responding) (hu : Spent s u) : u.Responding := by
  cases hu with
  | unlimited => exact h
  | finite => exact { h with }

theorem State.CreditWritten.spent (h : s.CreditWritten) (hu : Spent s u) : u.CreditWritten := by
  cases hu with
  | unlimited => exact h
  | finite => exact ⟨rfl, h.2⟩

/-- Spending a credit changes neither where the block stands nor how far the message is. -/
theorem Spent.regs (hu : Spent s u) : u.ctrl = s.ctrl ∧ u.sess = s.sess ∧ u.cursor = s.cursor ∧ u.total = s.total := by
  cases hu <;> exact ⟨rfl, rfl, rfl, rfl⟩

/-- A session's CURSOR does not wrap when it takes the next chunk. -/
theorem advanceChunk_cursor_toNat (h : s.cursor.toNat ≤ s.total.toNat) :
    (advanceChunk s.chunk s).cursor.toNat = s.cursor.toNat + s.chunk := by
  have := s.total.isLt
  exact advance_toNat _ _ (by unfold State.chunk; omega)

/-- A chunk that is not the last has seven bytes, so CURSOR and SEQ stay in step (R37 items 2 and 3). -/
theorem State.MidMessage.advanceChunk (h : s.MidMessage) (hne : (advanceChunk s.chunk s).cursor ≠ s.total) :
    (advanceChunk s.chunk s).MidMessage := by
  obtain ⟨hsix, hlt, height, hmod, hseq, -⟩ := h
  have hcursor := advanceChunk_cursor_toNat hlt.le
  have hne' : s.cursor.toNat + s.chunk ≠ s.total.toNat := fun he => hne (BitVec.eq_of_toNat_eq (hcursor.trans he))
  have hseven : s.chunk = 7 := by unfold State.chunk at hne' ⊢; omega
  have hroom : s.cursor.toNat + 7 ≤ s.total.toNat := by unfold State.chunk at hseven; omega
  rw [hseven] at hcursor hne'
  exact {
    afterFirst := by rw [hseven, hcursor]; omega
    notLast := by rw [hseven, hcursor, advanceChunk_total]; omega
    long := height
    wholeChunks := by rw [hseven, hcursor]; omega
    numbered := by
      rw [hseven, hcursor, advanceChunk_seq, nextSeq, BitVec.toNat_add, hseq, show (1 : Nibble).toNat = 1 from rfl]
      omega
    seqWritten := rfl }

/-- The message goes on after a chunk that was not the last. -/
theorem State.MidMessage.next (h : s.MidMessage) (hu : Spent (Machine.advanceChunk s.chunk s) u)
    (hne : u.cursor ≠ u.total) : u.MidMessage := by
  obtain ⟨-, -, hcursor, htotal⟩ := hu.regs
  exact (h.advanceChunk (by rwa [hcursor, htotal] at hne)).spent hu

theorem State.Tidy.advanceChunk (h : s.Tidy) : (advanceChunk s.chunk s).Tidy :=
  { h with
    cursorInTotal := by
      rw [advanceChunk_cursor_toNat h.cursorInTotal, advanceChunk_total]
      have := h.cursorInTotal
      unfold State.chunk
      omega }

end Chunk

/-! ## Reception -/

section Reception
variable {s : State}

/-- A full credit is not exhausted, because a block size of 0 is unlimited (R67, R90, R101). -/
theorem creditExhausted_of_refill (hcredit : s.credit = s.bs) (hinf : s.creditInf = creditInfOf s.bs) :
    s.creditExhausted = false := by
  simp [State.creditExhausted, hcredit, hinf, creditInfOf]

theorem emitTx_txfHeld (at' : Ctrl) (d : Frame) (s : State) : (emitTx at' d s).TxfHeld := fun _ => ⟨rfl, rfl⟩

/-- A store inside the buffer keeps its form. -/
theorem State.Tidy.writePbuf (h : s.Tidy) {a : Nat} {bytes : List Byte} (hfit : a + bytes.length ≤ bufCap) :
    (s.writePbuf a bytes).Tidy :=
  { h with pbufForm := memWriteList_wf _ _ _ hfit h.pbufForm }

theorem State.HasBytes.writePbuf {n : Nat} (h : s.HasBytes n) (bytes : List Byte) :
    (s.writePbuf n bytes).HasBytes (n + bytes.length) := fun a ha =>
  (memRead_memWriteList_isSome _ _ _ _).2 ((Nat.lt_or_ge a n).elim (fun hlt => .inr (h a hlt)) fun hge => .inl ⟨hge, ha⟩)

/-- A stored list fills the buffer from 0 on. -/
theorem hasBytes_writePbuf_zero (s : State) (bytes : List Byte) : (s.writePbuf 0 bytes).HasBytes bytes.length := by
  simpa using State.HasBytes.writePbuf (s := s) (n := 0) nofun bytes

/-- R100 ends the transaction with the whole payload in PBUF. -/
theorem State.Inv.receivedSf (h : s.Inv) {p : List Byte} (hfit : p.length ≤ bufCap) :
    (raiseDone (receivedSf (BitVec.ofNat 12 p.length) (s.writePbuf 0 p))).Inv := by
  have hbuf : bufCap = 4095 := rfl
  have hlen : (BitVec.ofNat 12 p.length).toNat = p.length := by simp; omega
  have htidy : (Machine.receivedSf (BitVec.ofNat 12 p.length) (s.writePbuf 0 p)).Tidy :=
    { h.tidy.writePbuf (a := 0) (bytes := p) (by omega) with cursorInTotal := Nat.le_refl _ }
  refine htidy.raiseDone_inv fun _ => ?_
  rw [receivedSf_total, hlen]
  exact hasBytes_writePbuf_zero s p

/-- R101 starts a reception with six bytes copied and a full credit. -/
theorem State.Inv.beginReceive (h : s.Inv) (hc : s.ctrl = .rxWait) {total : Len} (hlong : 8 ≤ total.toNat)
    (hcap : total.toNat ≤ s.cap.toNat) (p : Bytes6) (d : Frame) :
    (emitTx .txFc d (beginReceive total (s.writePbuf 0 p.toList))).Inv := by
  have hbusy := h.testerBusy (.inr (.inl hc))
  have hfit : 0 + 6 ≤ bufCap := by decide
  have hrec : (emitTx .txFc d (Machine.beginReceive total (s.writePbuf 0 p.toList))).Receiving :=
    { h.tidy.writePbuf (a := 0) (bytes := p.toList) hfit, hbusy with
      cursorInTotal := by simp; omega
      inCap := hcap
      blockSize := rfl
      separation := rfl
      unlimited := rfl
      copied := hasBytes_writePbuf_zero s p.toList
      totalWritten := rfl
      cursorWritten := rfl
      creditWritten := ⟨rfl, rfl, rfl, rfl⟩ }
  exact hrec.inv
    { afterFirst := by simp
      notLast := by simp; omega
      long := hlong
      wholeChunks := by simp
      numbered := by simp
      seqWritten := rfl }
    (.inr rfl) rfl (creditExhausted_of_refill rfl rfl) (emitTx_txfHeld _ _ _)

/-- The end of R102 in each of its three rows. -/
theorem State.Receiving.afterChunk_inv (h : s.Receiving) (hmsg : s.cursor ≠ s.total → s.MidMessage)
    (hc : s.ctrl = .rxWait) (hsess : s.sess = .awaitCons) : (afterChunk s).Inv := by
  obtain ⟨hlast, he⟩ | ⟨hmore, -, he⟩ | ⟨hmore, hcredit, he⟩ := afterChunk_cases s <;> rw [he]
  · exact h.toTidy.raiseDone_inv fun _ => hlast ▸ h.copied
  · have hrec : (reloadFc s).Receiving := { h.setCredit s.bs with }
    have hmid : (reloadFc s).MidMessage := { hmsg hmore with }
    exact hrec.inv hmid (.inr rfl) hsess (creditExhausted_of_refill rfl h.unlimited) (emitTx_txfHeld _ _ _)
  · exact (h.inv (hmsg hmore) (.inl hc) hsess hcredit (by simp [State.TxfHeld, hc, Ctrl.transmits])).congr rfl

end Reception

/-! ## Transmission -/

section Transmission
variable {s : State}

/-- `Continue()` in each of its three rows (R95). -/
theorem State.Responding.continueSend_inv (h : s.Responding) (hmsg : s.cursor ≠ s.total → s.MidMessage)
    (hsess : s.sess = .sendCons) (hcredit : s.CreditWritten) : (continueSend s).Inv := by
  obtain ⟨-, he⟩ | ⟨hmore, -, he⟩ | ⟨hmore, hleft, he⟩ := continueSend_cases s <;> rw [he]
  · exact h.toTidy.raiseDone_inv fun hr => absurd (h.role.symm.trans hr) nofun
  · have hresp : (awaitRx .awaitFc .awaitFlow s).Responding := { h with }
    exact hresp.inv rfl rfl ⟨nofun, nofun⟩ (fun _ => { hmsg hmore with }) (by simp) (by simp [State.TxfHeld, Ctrl.transmits])
  · have hresp : (emitSleep (stminToUs s.stmin) s).Responding := { h with }
    exact hresp.inv rfl (by simp [hsess, Ctrl.allowsState]) ⟨nofun, nofun⟩ (fun _ => { hmsg hmore with })
      (fun _ => ⟨hleft, hcredit⟩) (by simp [State.TxfHeld, Ctrl.transmits])

/-- R87 on a loaded response: the SF or the FF is on its way. -/
theorem State.Inv.serve (h : s.Inv) (hc : s.ctrl = .listen) (service pid : Byte) {r : List Byte} (d : Frame)
    (h1 : 1 ≤ r.length) (h20 : r.length ≤ 20) :
    (emitTx (if r.length ≤ 7 then .txSf else .txFf) d
      (beginSend (BitVec.ofNat 12 r.length) ((latchRequest service pid s).writePbuf 0 r))).Inv := by
  have hfit : 0 + r.length ≤ bufCap := by have : bufCap = 4095 := rfl; omega
  have hlen : (BitVec.ofNat 12 r.length).toNat = r.length := by simp; omega
  have hresp (at' : Ctrl) :
      (emitTx at' d (beginSend (BitVec.ofNat 12 r.length) ((latchRequest service pid s).writePbuf 0 r))).Responding :=
    { h.tidy.writePbuf hfit with
      cursorInTotal := Nat.zero_le _
      role := by simpa [hc, Ctrl.inRole] using h.ctrlInRole
      busy := rfl
      dir := rfl
      loaded := fun a ha => hasBytes_writePbuf_zero s r a (by simpa [hlen] using ha)
      totalWritten := rfl
      cursorWritten := rfl }
  split
  · next h7 =>
    exact (hresp .txSf).inv rfl rfl ⟨fun _ => by simp [hlen, h1, h7], nofun⟩ nofun nofun (emitTx_txfHeld _ _ _)
  · next h7 =>
    exact (hresp .txFf).inv rfl rfl ⟨nofun, fun _ => by simp [hlen]; omega⟩ nofun nofun (emitTx_txfHeld _ _ _)

/-- R89 starts a message in progress. -/
theorem State.Inv.sentFf (h : s.Inv) (hc : s.ctrl = .txFf) : (awaitRx .awaitFc .awaitFlow (sentFf s)).Inv := by
  have hresp := h.responding (by simp [State.inSend, hc])
  have hlong := h.responseStart.2 hc
  have hsix : (6 : Len).toNat = 6 := rfl
  have hresp' : (awaitRx .awaitFc .awaitFlow (Machine.sentFf s)).Responding :=
    { hresp with
      cursorInTotal := by simp; omega
      cursorWritten := rfl }
  refine hresp'.inv rfl rfl ⟨nofun, nofun⟩ (fun _ => ?_) nofun nofun
  exact {
    afterFirst := by simp
    notLast := by simp; omega
    long := hlong
    wholeChunks := by simp
    numbered := by simp
    seqWritten := rfl }

/-- R96 sends the next chunk with the credit that is left. -/
theorem State.Inv.sleepDone (h : s.Inv) (hc : s.ctrl = .sleep) (d : Frame) : (emitTx .txCf d s).Inv := by
  have hmid : s.midSend = true := by simp [State.midSend, hc]
  have hresp : (emitTx .txCf d s).Responding := { h.responding (by simp [State.inSend, hmid]) with }
  have hsess : s.sess = .sendCons := by simpa [hc, Ctrl.allowsState] using h.stateAgrees
  obtain ⟨-, -, -, -, hcredit, -⟩ := (readsWritten_iff s).1 h.marks
  exact hresp.inv rfl (by simp [hsess, Ctrl.allowsState]) ⟨nofun, nofun⟩ (fun _ => { h.inMessage (.inr hmid) with })
    (fun _ => ⟨h.creditLeft (.inr (.inl hc)), hcredit (.inr (.inl hc))⟩) (emitTx_txfHeld _ _ _)

end Transmission

/-! ## Every move -/

section Moves
variable {s t : State}

/-- R102 copies the next chunk and goes on by the row that CURSOR and CREDIT choose. -/
theorem State.Inv.receiveChunk (h : s.Inv) (hc : s.ctrl = .rxWait) (hsess : s.sess = .awaitCons) {p : Bytes7}
    (hfit : s.cursor.toNat + (p.toList.take s.chunk).length ≤ bufCap) {u : State}
    (hu : Spent (advanceChunk s.chunk (s.writePbuf s.cursor.toNat (p.toList.take s.chunk))) u) : (afterChunk u).Inv := by
  have hmid : s.midReceive = true := by simp [State.midReceive, hc, hsess]
  have hrec := h.receiving hmid
  have hmsg : (s.writePbuf s.cursor.toNat (p.toList.take s.chunk)).MidMessage := { h.inMessage (.inl hmid) with }
  have htaken : (p.toList.take s.chunk).length = s.chunk := by simp [Bytes7.toList, State.chunk]
  have hrec' : (advanceChunk s.chunk (s.writePbuf s.cursor.toNat (p.toList.take s.chunk))).Receiving :=
    { (h.tidy.writePbuf hfit).advanceChunk, hrec with
      copied := by
        have hcursor := advanceChunk_cursor_toNat hmsg.notLast.le
        have hbytes := hrec.copied.writePbuf (p.toList.take s.chunk)
        rw [htaken] at hbytes
        exact hcursor ▸ hbytes
      cursorWritten := rfl }
  obtain ⟨hctrl, hst, -, -⟩ := hu.regs
  exact (hrec'.spent hu).afterChunk_inv (hmsg.next hu) (hctrl.trans hc) (hst.trans hsess)

/-- R97 counts the chunk that was sent and goes on by `Continue()`. -/
theorem State.Inv.sentChunk (h : s.Inv) (hc : s.ctrl = .txCf) {u : State} (hu : Spent (advanceChunk s.chunk s) u) :
    (continueSend u).Inv := by
  have hmid : s.midSend = true := by simp [State.midSend, hc]
  have hmsg := h.inMessage (.inr hmid)
  have hresp := h.responding (by simp [State.inSend, hmid])
  have hresp' : (advanceChunk s.chunk s).Responding := { h.tidy.advanceChunk, hresp with cursorWritten := rfl }
  obtain ⟨-, -, -, -, hcredit, -⟩ := (readsWritten_iff s).1 h.marks
  have hcredit' : (advanceChunk s.chunk s).CreditWritten := hcredit (.inr (.inr hc))
  have hsess : s.sess = .sendCons := by simpa [hc, Ctrl.allowsState] using h.stateAgrees
  obtain ⟨-, hst, -, -⟩ := hu.regs
  exact (hresp'.spent hu).continueSend_inv (hmsg.next hu) (hst.trans hsess) (hcredit'.spent hu)

/-- R90 writes the sender's credit and goes on by `Continue()`. -/
theorem State.Inv.grantCredit (h : s.Inv) (hc : s.ctrl = .awaitFc) (bs stmin : Byte) :
    (continueSend (grantCredit bs stmin s)).Inv := by
  have hmid : s.midSend = true := by simp [State.midSend, hc]
  have hresp : (Machine.grantCredit bs stmin s).Responding := { h.responding (by simp [State.inSend, hmid]) with }
  exact hresp.continueSend_inv (fun _ => { h.inMessage (.inr hmid) with }) rfl ⟨rfl, rfl, rfl, rfl⟩

/-- A frame keeps the invariant; of its fields only a First Frame's total matters. -/
theorem FrameEffect.inv {f : TypedFrame} (he : FrameEffect s f t) (h : s.Inv)
    (hff : ∀ total p, f = .ff total p → 8 ≤ total.toNat) : t.Inv := by
  cases he with
  | dropped _ k hc => exact h.drop hc k
  | unsupported service pid extra hc =>
    exact State.Inv.drop (s := latchRequest service pid s) (h.congr rfl) hc _
  | served service pid extra r d hc h1 h20 => exact h.serve hc service pid d h1 h20
  | failed _ k hc => exact h.tidy.raiseFail_inv k
  | single p hc hs hcap hfit => exact h.receivedSf hfit
  | first total p hc hs hcap => exact h.beginReceive hc (hff total p rfl) hcap p _
  | consecutive p u hc hs hle hcap hfit hu => exact h.receiveChunk hc hs hfit hu
  | granted bs stmin hc => exact h.grantCredit hc bs stmin
  | waited bs stmin hc => exact h.congr rfl

/-- R114 latches the command and the request is on its way. -/
theorem State.Inv.acceptCommand (h : s.Inv) (hc : s.ctrl = .idleCmd) (r : Request) (d : Frame) :
    (emitTx .txReq d (latchCommand r s)).Inv := by
  have hbusy : (emitTx .txReq d (latchCommand r s)).TesterBusy :=
    { h.tidy with
      role := by simpa [hc, Ctrl.inRole] using h.ctrlInRole
      busy := rfl
      dir := rfl
      capWritten := rfl }
  exact hbusy.inv (.inl rfl) rfl (emitTx_txfHeld _ _ _)

/-- R115 and R104: with its request or its flow control out, the tester awaits the next frame. -/
theorem State.Inv.awaitResponse (h : s.Inv) (hc : s.ctrl = .txReq ∨ s.ctrl = .txFc) :
    (awaitRx .rxWait s.sess s).Inv := by
  have hheld : (awaitRx .rxWait s.sess s).TxfHeld := by simp [State.TxfHeld, Ctrl.transmits]
  obtain hc | hc := hc
  · have hsess : s.sess = .idle := by simpa [hc, Ctrl.allowsState] using h.stateAgrees
    have hbusy : (awaitRx .rxWait s.sess s).TesterBusy := { h.testerBusy (.inl hc) with }
    exact hbusy.inv (.inr rfl) hsess hheld
  · have hmid : s.midReceive = true := by simp [State.midReceive, hc]
    have hsess : s.sess = .awaitCons := by simpa [hc, Ctrl.allowsState] using h.stateAgrees
    have hrec : (awaitRx .rxWait s.sess s).Receiving := { h.receiving hmid with }
    exact hrec.inv { h.inMessage (.inl hmid) with } (.inl rfl) hsess (h.creditLeft (.inl hmid)) hheld

theorem BlockMove.inv (hm : BlockMove s t) (h : s.Inv) : t.Inv := by
  cases hm with
  | waits => exact h
  | accepted r rest d hc hhost => exact State.Inv.acceptCommand (s := s.withHost rest) (h.congr rfl) hc r d
  | txFailed rest delay hc hans => exact State.Tidy.raiseFail_inv (s := s.withTxAnswers rest delay) { h.tidy with } _
  | awaitsResponse rest delay hc hans => exact State.Inv.awaitResponse (s := s.withTxAnswers rest delay) (h.congr rfl) hc
  | singleSent rest delay hc hans =>
    have hrole : s.cfg.role = .simulator := by simpa [hc, Ctrl.inRole] using h.ctrlInRole
    exact State.Tidy.raiseDone_inv { h.tidy with cursorInTotal := Nat.le_refl _ } fun hr => absurd (hrole.symm.trans hr) nofun
  | firstSent rest delay hc hans => exact State.Inv.sentFf (s := s.withTxAnswers rest delay) (h.congr rfl) hc
  | chunkSent rest delay u hc hans hle hu => exact State.Inv.sentChunk (s := s.withTxAnswers rest delay) (h.congr rfl) hc hu
  | slept rest us d hc htimer hdue => exact State.Inv.sleepDone (s := s.withTimer rest us) (h.congr rfl) hc d
  | received d rest delay _ hv hlink ht => exact ht.inv (h.congr rfl) fun total p => typedFrame_ff_total
  | foreign id d rest delay hv hlink hid => exact h.congr rfl
  | linkErrorDropped rest delay hc hlink => exact State.Inv.drop (s := s.withLink rest delay) (h.congr rfl) hc _
  | linkFailed k e rest delay hc hlink => exact State.Tidy.raiseFail_inv (s := s.withLink rest delay) { h.tidy with } k

end Moves

/-! ## The obligations -/

/-- Settles O46: a reset clears whatever state it meets, so the blank one too. -/
theorem resetMeetsInvariant : Obligations.ResetMeetsInvariant := by
  intro cfg linkOk
  have hkept := bootFrom_readOnly (State.blank cfg) linkOk
  exact ⟨bootFrom_inv _ linkOk, congrArg Prod.fst hkept⟩

/-- Settles O47: by whose turn the step is, and for the block's turn by its moves. -/
theorem stepKeepsInvariant : Obligations.StepKeepsInvariant := by
  intro s t h hstep
  obtain ⟨-, hb⟩ | ⟨rest, -, hb⟩ | ⟨rpm, speed, rest, -, rfl⟩ | ⟨linkOk, rest, -, rfl⟩ := step_cases hstep
  · exact (blockStep_move hb).inv h
  · exact (blockStep_move hb).inv (h.congr rfl)
  · exact h.congr rfl
  · exact bootFrom_inv _ linkOk

end Sys2Proof.Machine
end

section
/-! O53: a tester's transaction ends with exactly one `Complete`. Only `raise Fail` and `raise Done` emit one, and only they bring a
tester from a transaction back to IDLE_CMD (R34, R122, R123). -/

namespace Sys2Proof.Machine

/-- The step from `s` to `t` ends a tester's transaction. -/
def EndsTransaction (s t : State) : Prop := s.ctrl.inTransaction = true ∧ t.ctrl = .idleCmd

/-- R34 for the step from `s` to `t`: one `Complete` with the latched outcome where a transaction ends, none elsewhere. -/
def CompletesOnce (s t : State) : Prop :=
  (EndsTransaction s t →
    (t.status = .done ∧ completions (emitted s t) = [.ok t.resultLen]) ∨
      (t.status = .failed ∧ ∃ k : ErrorKind, k.code = t.failCode ∧ completions (emitted s t) = [.err k])) ∧
  (¬ EndsTransaction s t → completions (emitted s t) = [])

theorem inTransaction_of_transmits {c : Ctrl} (h : c.transmits = true) : c.inTransaction = true := by
  cases c <;> simp [Ctrl.transmits, Ctrl.inTransaction] at h ⊢

theorem emitted_of_out {s t : State} {os : List Output} (h : t.out = s.out ++ os) : emitted s t = os := by
  rw [emitted, h, List.drop_left]

section Steps
variable {s t u : State}

/-- A step that emits no `Complete` and ends no transaction. -/
theorem CompletesOnce.of_silent {os : List Output} (hout : t.out = s.out ++ os) (hos : completions os = [])
    (hgoes : ¬ EndsTransaction s t) : CompletesOnce s t :=
  ⟨fun he => absurd he hgoes, fun _ => by rw [emitted_of_out hout, hos]⟩

theorem not_endsTransaction_of_ctrl (h : t.ctrl ≠ .idleCmd) : ¬ EndsTransaction s t := fun he => h he.2

/-- Where the block stays put it ends no transaction. -/
theorem not_endsTransaction_of_stays (h : t.ctrl = s.ctrl) : ¬ EndsTransaction s t := by
  rintro ⟨hin, hidle⟩
  rw [← h, hidle] at hin
  cases hin

theorem raiseFail_completesOnce (hout : u.out = s.out) (hrole : u.cfg.role = .tester) (hc : s.ctrl.inTransaction = true)
    (k : ErrorKind) : CompletesOnce s (raiseFail k u) := by
  have hem : emitted s (raiseFail k u) = [.log k, .complete (.err k)] :=
    emitted_of_out (by rw [raiseFail_out, hout, if_pos hrole])
  have hends : EndsTransaction s (raiseFail k u) := ⟨hc, by rw [raiseFail_ctrl, if_pos hrole]⟩
  exact ⟨fun _ => .inr ⟨raiseFail_status k u, k, (raiseFail_failCode k u).symm, by rw [hem]; rfl⟩,
    fun hno => absurd hends hno⟩

theorem raiseDone_completesOnce (hout : u.out = s.out) (hrole : u.cfg.role = .tester)
    (hc : s.ctrl.inTransaction = true) : CompletesOnce s (raiseDone u) := by
  have hem : emitted s (raiseDone u) = [.complete (.ok u.total)] :=
    emitted_of_out (by rw [raiseDone_out, hout, if_pos hrole])
  have hends : EndsTransaction s (raiseDone u) := ⟨hc, by rw [raiseDone_ctrl, if_pos hrole]⟩
  exact ⟨fun _ => .inl ⟨raiseDone_status u, by rw [hem, raiseDone_resultLen, if_pos hrole]; rfl⟩,
    fun hno => absurd hends hno⟩

theorem afterChunk_completesOnce (hout : u.out = s.out) (hrole : u.cfg.role = .tester) (hc : s.ctrl = .rxWait)
    (hcu : u.ctrl = s.ctrl) : CompletesOnce s (afterChunk u) := by
  obtain ⟨-, he⟩ | ⟨-, -, he⟩ | ⟨-, -, he⟩ := afterChunk_cases u <;> rw [he]
  · exact raiseDone_completesOnce hout hrole (by rw [hc]; rfl)
  · exact .of_silent (congrArg (· ++ _) hout) rfl (not_endsTransaction_of_ctrl nofun)
  · exact .of_silent (congrArg (· ++ _) hout) rfl (not_endsTransaction_of_stays hcu)

theorem Spent.out_cfg (h : Spent s u) : u.out = s.out ∧ u.cfg = s.cfg := by
  cases h <;> exact ⟨rfl, rfl⟩

theorem FrameEffect.completesOnce {f : TypedFrame} (he : FrameEffect s f t) (hrole : s.cfg.role = .tester)
    (hin : s.ctrl.inRole .tester = true) : CompletesOnce s t := by
  have hlisten : s.ctrl ≠ .listen := fun hc => by rw [hc] at hin; cases hin
  have hawait : s.ctrl ≠ .awaitFc := fun hc => by rw [hc] at hin; cases hin
  cases he with
  | dropped _ k hc => exact absurd hc hlisten
  | unsupported service pid extra hc => exact absurd hc hlisten
  | served service pid extra r d hc => exact absurd hc hlisten
  | failed _ k hc => exact raiseFail_completesOnce rfl hrole (by rw [hc.resolve_right hawait]; rfl) k
  | single p hc => exact raiseDone_completesOnce rfl hrole (by rw [hc]; rfl)
  | first total p hc => exact .of_silent rfl rfl (not_endsTransaction_of_ctrl nofun)
  | consecutive p u hc hs hle hcap hfit hu =>
    obtain ⟨hout, hcfg⟩ := hu.out_cfg
    exact afterChunk_completesOnce hout (by rw [hcfg]; exact hrole) hc hu.regs.1
  | granted bs stmin hc => exact absurd hc hawait
  | waited bs stmin hc => exact absurd hc hawait

theorem BlockMove.completesOnce (hm : BlockMove s t) (hrole : s.cfg.role = .tester)
    (hin : s.ctrl.inRole .tester = true) : CompletesOnce s t := by
  cases hm with
  | waits => exact .of_silent (List.append_nil _).symm rfl (not_endsTransaction_of_stays rfl)
  | accepted r rest d hc hhost => exact .of_silent rfl rfl (not_endsTransaction_of_ctrl nofun)
  | txFailed rest delay hc hans =>
    exact raiseFail_completesOnce (u := s.withTxAnswers rest delay) rfl hrole (inTransaction_of_transmits hc) _
  | awaitsResponse rest delay hc hans => exact .of_silent rfl rfl (not_endsTransaction_of_ctrl nofun)
  | singleSent rest delay hc hans => rw [hc] at hin; cases hin
  | firstSent rest delay hc hans => rw [hc] at hin; cases hin
  | chunkSent rest delay u hc hans hle hu => rw [hc] at hin; cases hin
  | slept rest us d hc htimer hdue => rw [hc] at hin; cases hin
  | received d rest delay _ hv hlink ht => exact ht.completesOnce hrole hin
  | foreign id d rest delay hv hlink hid => exact .of_silent rfl rfl (not_endsTransaction_of_stays rfl)
  | linkErrorDropped rest delay hc hlink => rw [hc] at hin; cases hin
  | linkFailed k e rest delay hc hlink =>
    have hbusy : s.ctrl.inTransaction = true := by rcases hc with hc | hc <;> rw [hc] <;> rfl
    exact raiseFail_completesOnce (u := s.withLink rest delay) rfl hrole hbusy k

end Steps

/-- Settles O53: by whose turn the step is; a reset turn is excluded, and the role column of R17 leaves the tester's moves. -/
theorem oneCompletePerTransaction : Obligations.OneCompletePerTransaction := by
  intro s t h hrole hstep hreset
  have hin : s.ctrl.inRole .tester = true := hrole ▸ h.ctrlInRole
  obtain ⟨-, hb⟩ | ⟨rest, -, hb⟩ | ⟨rpm, speed, rest, -, rfl⟩ | ⟨linkOk, rest, ha, -⟩ := step_cases hstep
  · exact (blockStep_move hb).completesOnce hrole hin
  · exact (blockStep_move hb).completesOnce hrole hin
  · exact CompletesOnce.of_silent (List.append_nil _).symm rfl (not_endsTransaction_of_stays rfl)
  · exact absurd ha (hreset linkOk rest)

end Sys2Proof.Machine
end

section
/-! O10 and O31: what a list write leaves in PBUF, and which bytes a received frame writes. `frameStores` says what a frame's rule may
store; `execTyped_storesOnly` goes through the receive points and says that the rule stores exactly that. -/

namespace Sys2Proof.Machine

/-! ## A list write -/

/-- Settles O10: by induction on the bytes; the first one lies at the offset of the write, the others from the next offset on. -/
theorem pbufReadsBackWrites : Obligations.PbufReadsBackWrites := by
  intro m a x bytes
  induction bytes generalizing m a with
  | nil => rw [memWriteList, if_neg (by simp)]
  | cons b bs ih =>
    obtain hlt | rfl | hgt := Nat.lt_trichotomy x a
    · rw [memRead_memWriteList_below _ _ _ _ hlt, if_neg (by omega)]
    · rw [memWriteList, memRead_memWriteList_below _ _ _ _ (by omega), memRead_memWrite]
      simp
    · have hshift : x - a = (x - (a + 1)) + 1 := by omega
      have hrange : (a ≤ x ∧ x < a + (b :: bs).length) ↔ (a + 1 ≤ x ∧ x < a + 1 + bs.length) := by
        rw [List.length_cons]
        omega
      rw [memWriteList, ih, memRead_memWrite, if_neg (Nat.ne_of_gt hgt), hshift, List.getElem?_cons_succ]
      simp only [hrange]

/-! ## What a frame may store -/

section Stores
variable {s t : State}

theorem frameStores_request (hc : s.ctrl = .listen) (service pid : Byte) (extra : List Byte) :
    frameStores (.sf (service :: pid :: extra)) s = (dispatch service pid s.snapshot s.cfg.vin).map fun r => (0, r) := by
  simp only [frameStores, hc]

theorem frameStores_single (hc : s.ctrl = .rxWait) (hs : s.sess = .idle) (p : List Byte) :
    frameStores (.sf p) s = if p.length ≤ s.cap.toNat then some (0, p) else none := by
  simp [frameStores, hc, hs]

theorem frameStores_first (hc : s.ctrl = .rxWait) (hs : s.sess = .idle) (total : Len) (p : Bytes6) :
    frameStores (.ff total p) s = if total.toNat ≤ s.cap.toNat then some (0, p.toList) else none := by
  simp only [frameStores, hc, hs]

theorem frameStores_consecutive (hc : s.ctrl = .rxWait) (hs : s.sess = .awaitCons) (seq : Nibble) (p : Bytes7) :
    frameStores (.cf seq p) s =
      if seq = s.seq ∧ s.cursor.toNat + s.chunk ≤ s.cap.toNat then some (s.cursor.toNat, p.toList.take s.chunk)
      else none := by
  simp only [frameStores, hc, hs]
  rfl

theorem frameStores_awaitFc (hc : s.ctrl = .awaitFc) (f : TypedFrame) : frameStores f s = none := by
  simp [frameStores, hc]

/-! ## What a frame stores -/

/-- PBUF after the `MemWrite` that `frameStores` names. -/
def stored (m : List Host.Cell) : Option (Nat × List Byte) → List Host.Cell
  | none => m
  | some (a, bytes) => memWriteList m a bytes

/-- The step from `s` to `t` writes the bytes that `frameStores` names, and nothing else of PBUF. -/
def StoresOnly (f : TypedFrame) (s t : State) : Prop := t.pbuf = stored s.pbuf (frameStores f s)

theorem StoresOnly.of_none {f : TypedFrame} (hno : frameStores f s = none) (hkeep : t.pbuf = s.pbuf) :
    StoresOnly f s t := by
  rw [StoresOnly, hno]
  exact hkeep

theorem StoresOnly.of_some {f : TypedFrame} {a : Nat} {bytes : List Byte} (hst : frameStores f s = some (a, bytes))
    (hwrite : t.pbuf = memWriteList s.pbuf a bytes) : StoresOnly f s t := by
  rw [StoresOnly, hst]
  exact hwrite

theorem fail_storesOnly {f : TypedFrame} {k : ErrorKind} (hno : frameStores f s = none) (h : fail k s = .next t) :
    StoresOnly f s t := by
  cases h
  exact .of_none hno (raiseFail_pbuf k s)

theorem dropRequest_storesOnly {f : TypedFrame} {k : ErrorKind} (hno : frameStores f s = none)
    (h : dropRequest k s = .next t) : StoresOnly f s t := by
  cases h
  exact .of_none hno rfl

theorem Spent.pbuf (h : Spent s t) : t.pbuf = s.pbuf := by
  cases h <;> rfl

theorem afterChunk_pbuf (s : State) : (afterChunk s).pbuf = s.pbuf := by
  obtain ⟨-, he⟩ | ⟨-, -, he⟩ | ⟨-, -, he⟩ := afterChunk_cases s <;> rw [he]
  · exact raiseDone_pbuf s
  · rfl
  · rfl

theorem continueSend_pbuf (s : State) : (continueSend s).pbuf = s.pbuf := by
  obtain ⟨-, he⟩ | ⟨-, -, he⟩ | ⟨-, -, he⟩ := continueSend_cases s <;> rw [he]
  · exact raiseDone_pbuf s
  · rfl
  · rfl

/-- R118: a supported request loads the dispatcher's response, any other stores nothing. -/
theorem serve_storesOnly {service pid : Byte} (extra : List Byte) (hc : s.ctrl = .listen)
    (h : serve service pid s = .next t) : StoresOnly (.sf (service :: pid :: extra)) s t := by
  have hst := frameStores_request hc service pid extra
  unfold serve at h
  split at h
  · next r hr =>
    obtain ⟨-, h⟩ := State.store_next h
    obtain ⟨h1, h20⟩ := dispatch_length hr
    obtain ⟨d, rfl⟩ := send_emits (by simp; omega) h
    exact .of_some (by rw [hst, hr]; rfl) rfl
  · next hr =>
    cases h
    exact .of_none (by rw [hst, hr]; rfl) rfl

theorem acceptRequest_storesOnly {p : List Byte} (hc : s.ctrl = .listen) (h : acceptRequest p s = .next t) :
    StoresOnly (.sf p) s t := by
  match p with
  | [] | [_] => exact dropRequest_storesOnly (by simp [frameStores, hc]) h
  | service :: pid :: extra => exact serve_storesOnly extra hc h

/-- R100: the copy of a Single Frame that fits. -/
theorem sfAtRxWait_storesOnly {p : List Byte} (hc : s.ctrl = .rxWait) (h : sfAtRxWait p s = .next t) :
    StoresOnly (.sf p) s t := by
  obtain ⟨hs, h⟩ | ⟨hs, h⟩ := onState_next h
  · have hst := frameStores_single hc hs p
    unfold receiveSf at h
    split at h
    · exact fail_storesOnly (hst.trans (if_neg (by omega))) h
    · obtain ⟨-, h⟩ := State.store_next h
      cases h
      exact .of_some (hst.trans (if_pos (by omega))) (raiseDone_pbuf _)
  · exact fail_storesOnly (by simp [frameStores, hc, hs]) h

/-- R101: the copy of a First Frame whose message fits. -/
theorem ffAtRxWait_storesOnly {total : Len} {p : Bytes6} (hc : s.ctrl = .rxWait) (h : ffAtRxWait total p s = .next t) :
    StoresOnly (.ff total p) s t := by
  obtain ⟨hs, h⟩ | ⟨hs, h⟩ := onState_next h
  · have hst := frameStores_first hc hs total p
    unfold receiveFf at h
    split at h
    · exact fail_storesOnly (hst.trans (if_neg (by omega))) h
    · obtain ⟨-, h⟩ := State.store_next h
      cases h
      exact .of_some (hst.trans (if_pos (by omega))) rfl
  · exact fail_storesOnly (by simp [frameStores, hc, hs]) h

/-- R102: the copy of the chunk at CURSOR when the sequence number is the expected one. -/
theorem cfAtRxWait_storesOnly {seq : Nibble} {p : Bytes7} (hc : s.ctrl = .rxWait) (h : cfAtRxWait seq p s = .next t) :
    StoresOnly (.cf seq p) s t := by
  obtain ⟨hs, h⟩ | ⟨hs, h⟩ := onState_next h
  · exact fail_storesOnly (by simp [frameStores, hc, hs]) h
  · have hst := frameStores_consecutive hc hs seq p
    unfold receiveCf at h
    split at h
    · next hseq =>
      obtain ⟨-, h⟩ := State.withChunk_next h
      split at h
      · cases h
      · next hcap =>
        obtain ⟨-, h⟩ := State.store_next h
        obtain ⟨u, hu, h⟩ := spendCredit_spent h
        cases h
        exact .of_some (hst.trans (if_pos ⟨hseq, Nat.le_of_not_lt hcap⟩)) ((afterChunk_pbuf u).trans hu.pbuf)
    · next hseq => exact fail_storesOnly (hst.trans (if_neg fun hgo => hseq hgo.1)) h

/-- A Flow Control and an illegal frame store nothing at any receive point. -/
theorem FrameEffect.pbuf_of_noData {f : TypedFrame} (he : FrameEffect s f t)
    (hf : (∃ fs bs stmin, f = .fc fs bs stmin) ∨ f = .invalid) : t.pbuf = s.pbuf := by
  cases he with
  | dropped _ k hc => rfl
  | failed _ k hc => exact raiseFail_pbuf k s
  | granted bs stmin hc => exact continueSend_pbuf _
  | waited bs stmin hc => rfl
  | unsupported | served | single | first | consecutive => simp at hf

/-- Of PBUF a received frame changes what `frameStores` names. -/
theorem execTyped_storesOnly {f : TypedFrame} (h : execTyped f s = .next t) : StoresOnly f s t := by
  match f with
  | .sf p =>
    obtain ⟨hc, h⟩ | ⟨hc, h⟩ | ⟨hc, h⟩ := onReceive_next h
    · exact acceptRequest_storesOnly hc h
    · exact sfAtRxWait_storesOnly hc h
    · exact fail_storesOnly (frameStores_awaitFc hc _) h
  | .ff total p =>
    obtain ⟨hc, h⟩ | ⟨hc, h⟩ | ⟨hc, h⟩ := onReceive_next h
    · exact dropRequest_storesOnly (by simp [frameStores, hc]) h
    · exact ffAtRxWait_storesOnly hc h
    · exact fail_storesOnly (frameStores_awaitFc hc _) h
  | .cf seq p =>
    obtain ⟨hc, h⟩ | ⟨hc, h⟩ | ⟨hc, h⟩ := onReceive_next h
    · exact dropRequest_storesOnly (by simp [frameStores, hc]) h
    · exact cfAtRxWait_storesOnly hc h
    · exact fail_storesOnly (frameStores_awaitFc hc _) h
  | .fc fs bs stmin => exact .of_none rfl ((execTyped_effect h).pbuf_of_noData (.inl ⟨fs, bs, stmin, rfl⟩))
  | .invalid => exact .of_none rfl ((execTyped_effect h).pbuf_of_noData (.inr rfl))

end Stores

/-- Settles O31: the memory after the step is the one `frameStores` names, and O10 reads it. -/
theorem framesStoreOnlyTheirBytes : Obligations.FramesStoreOnlyTheirBytes := by
  intro i s t h
  have hst : StoresOnly i.typed s t := execTyped_storesOnly (exec_eq_execTyped i s ▸ h)
  unfold StoresOnly at hst
  rw [hst]
  split
  · next hno => exact fun x => by rw [hno]; rfl
  · next a bytes hsome => exact fun x => by rw [hsome]; exact pbufReadsBackWrites s.pbuf a x bytes

end Sys2Proof.Machine
end

section
/-! O54: which port's list a step takes from. A received frame reads no list, so the lists move only by the delivery that brought the
event, and each move of `BlockMove` names its control point (R31, R34, R54, R55). -/

namespace Sys2Proof.Machine

/-- The lists of the host, the link, the transmit answers and the timer. -/
def State.ports (s : State) : List Request × List LinkAnswer × List TxAnswer × List Nat :=
  (s.host, s.link, s.txAnswers, s.timer)

/-- Of each port's list the step from `s` to `t` takes nothing, or the oldest entry at a control point with that handshake. -/
structure TakesInOrder (s t : State) : Prop where
  host : t.host = s.host ∨ (s.ctrl = .idleCmd ∧ ∃ r, s.host = r :: t.host)
  link : t.link = s.link ∨ (s.ctrl.view ≠ none ∧ ∃ a, s.link = a :: t.link)
  txAnswers : t.txAnswers = s.txAnswers ∨ (s.ctrl.transmits = true ∧ ∃ a, s.txAnswers = a :: t.txAnswers)
  timer : t.timer = s.timer ∨ (s.ctrl = .sleep ∧ ∃ us, s.timer = us :: t.timer)

section Ports
variable {s t : State}

theorem ports_eq_iff :
    t.ports = s.ports ↔ t.host = s.host ∧ t.link = s.link ∧ t.txAnswers = s.txAnswers ∧ t.timer = s.timer := by
  simp [State.ports]

theorem TakesInOrder.of_none (ht : t.ports = s.ports) : TakesInOrder s t := by
  obtain ⟨hhost, hlink, hans, htimer⟩ := ports_eq_iff.1 ht
  exact ⟨.inl hhost, .inl hlink, .inl hans, .inl htimer⟩

/-- A command, at IDLE_CMD (R55). -/
theorem TakesInOrder.of_host {r : Request} {rest : List Request} (hc : s.ctrl = .idleCmd) (hq : s.host = r :: rest)
    (ht : t.ports = (s.withHost rest).ports) : TakesInOrder s t := by
  obtain ⟨hhost, hlink, hans, htimer⟩ := ports_eq_iff.1 ht
  exact ⟨.inr ⟨hc, r, hhost ▸ hq⟩, .inl hlink, .inl hans, .inl htimer⟩

/-- The link's answer to an `RxReq`, at a receive point (R54). -/
theorem TakesInOrder.of_link {a : LinkAnswer} {rest : List LinkAnswer} (delay : Nat) (hv : s.ctrl.view ≠ none)
    (hq : s.link = a :: rest) (ht : t.ports = (s.withLink rest delay).ports) : TakesInOrder s t := by
  obtain ⟨hhost, hlink, hans, htimer⟩ := ports_eq_iff.1 ht
  exact ⟨.inl hhost, .inr ⟨hv, a, hlink ▸ hq⟩, .inl hans, .inl htimer⟩

/-- The link's answer to a `Tx`, at a transmit point (R31). -/
theorem TakesInOrder.of_txAnswers {a : TxAnswer} {rest : List TxAnswer} (delay : Nat) (hc : s.ctrl.transmits = true)
    (hq : s.txAnswers = a :: rest) (ht : t.ports = (s.withTxAnswers rest delay).ports) : TakesInOrder s t := by
  obtain ⟨hhost, hlink, hans, htimer⟩ := ports_eq_iff.1 ht
  exact ⟨.inl hhost, .inl hlink, .inr ⟨hc, a, hans ▸ hq⟩, .inl htimer⟩

/-- The timer's answer, at SLEEP (R33). -/
theorem TakesInOrder.of_timer {us : Nat} {rest : List Nat} (delay : Nat) (hc : s.ctrl = .sleep)
    (hq : s.timer = us :: rest) (ht : t.ports = (s.withTimer rest delay).ports) : TakesInOrder s t := by
  obtain ⟨hhost, hlink, hans, htimer⟩ := ports_eq_iff.1 ht
  exact ⟨.inl hhost, .inl hlink, .inl hans, .inr ⟨hc, us, htimer ▸ hq⟩⟩

theorem ports_of_outside (h : t.outside = s.outside) : t.ports = s.ports := by
  simp only [State.outside, Prod.mk.injEq] at h
  obtain ⟨-, -, -, -, hhost, hlink, hans, htimer, -⟩ := h
  exact ports_eq_iff.2 ⟨hhost, hlink, hans, htimer⟩

theorem raiseFail_ports (k : ErrorKind) (s : State) : (raiseFail k s).ports = s.ports :=
  ports_of_outside (raiseFail_frameKeeps s k).outside

theorem raiseDone_ports (s : State) : (raiseDone s).ports = s.ports :=
  ports_of_outside (raiseDone_keeps s).outside

theorem Spent.continueSend_ports (h : Spent s t) : (continueSend t).ports = s.ports :=
  ports_of_outside ((continueSend_keeps t).outside.trans h.keeps.outside)

theorem BlockMove.takesInOrder (hm : BlockMove s t) : TakesInOrder s t := by
  cases hm with
  | waits => exact .of_none rfl
  | accepted r rest d hc hhost => exact .of_host hc hhost rfl
  | txFailed rest delay hc hans => exact .of_txAnswers delay hc hans (raiseFail_ports _ _)
  | awaitsResponse rest delay hc hans =>
    have htransmits : s.ctrl.transmits = true := by rcases hc with hc | hc <;> rw [hc] <;> rfl
    exact .of_txAnswers delay htransmits hans rfl
  | singleSent rest delay hc hans => exact .of_txAnswers delay (by rw [hc]; rfl) hans (raiseDone_ports _)
  | firstSent rest delay hc hans => exact .of_txAnswers delay (by rw [hc]; rfl) hans rfl
  | chunkSent rest delay u hc hans hle hu => exact .of_txAnswers delay (by rw [hc]; rfl) hans hu.continueSend_ports
  | slept rest us d hc htimer hdue => exact .of_timer us hc htimer rfl
  | received d rest delay _ hv hlink ht => exact .of_link delay hv hlink (ports_of_outside ht.keeps.outside)
  | foreign id d rest delay hv hlink hid => exact .of_link delay hv hlink rfl
  | linkErrorDropped rest delay hc hlink => exact .of_link delay (by rw [hc]; exact nofun) hlink rfl
  | linkFailed k e rest delay hc hlink =>
    have hview : s.ctrl.view ≠ none := by rcases hc with hc | hc <;> rw [hc] <;> exact nofun
    exact .of_link delay hview hlink (raiseFail_ports _ _)

theorem bootFrom_ports (s : State) (linkOk : Bool) : (s.bootFrom linkOk).ports = s.ports := by
  unfold State.bootFrom
  split <;> rfl

theorem step_takesInOrder (h : step s = .next t) : TakesInOrder s t := by
  obtain ⟨-, hb⟩ | ⟨rest, -, hb⟩ | ⟨rpm, speed, rest, -, rfl⟩ | ⟨linkOk, rest, -, rfl⟩ := step_cases h
  · exact (blockStep_move hb).takesInOrder
  · exact { (blockStep_move hb).takesInOrder with }
  · exact .of_none rfl
  · exact .of_none (bootFrom_ports _ linkOk)

end Ports

/-- Settles O54: by whose turn the step is, and for the block's turn by its moves. -/
theorem portsConsumedInOrder : Obligations.PortsConsumedInOrder := by
  intro s t h
  obtain ⟨hhost, hlink, hans, htimer⟩ := step_takesInOrder h
  exact ⟨hhost, hlink, hans, htimer⟩

end Sys2Proof.Machine
end

section
/-! O56: a step emits at most one `Tx`. Only `emitTx` emits one: it writes TXF with the frame it emits and goes to a transmit point
(R30), and no move uses it twice. -/

namespace Sys2Proof.Machine

/-- The step from `s` to `t` emits no `Tx`, or the one that TXF holds as it enters a transmit point. -/
def TransmitsOnce (s t : State) : Prop :=
  transmitted (emitted s t) = [] ∨
    (t.ctrl.transmits = true ∧ t.txf.id = s.cfg.txId ∧ transmitted (emitted s t) = [t.txf.d])

section Transmits
variable {s t u : State}

theorem TransmitsOnce.of_silent {os : List Output} (hout : t.out = s.out ++ os) (hos : transmitted os = []) :
    TransmitsOnce s t :=
  .inl (by rw [emitted_of_out hout, hos])

theorem emitTx_transmitsOnce {at' : Ctrl} (d : Frame) (hat : at'.transmits = true) (hout : u.out = s.out)
    (hcfg : u.cfg = s.cfg) : TransmitsOnce s (emitTx at' d u) := by
  have hem : emitted s (emitTx at' d u) = [.tx u.cfg.txId d] := emitted_of_out (by rw [emitTx_out, hout])
  exact .inr ⟨hat, congrArg Config.txId hcfg, by rw [hem]; rfl⟩

theorem raiseFail_transmitsOnce (hout : u.out = s.out) (k : ErrorKind) : TransmitsOnce s (raiseFail k u) :=
  .of_silent (by rw [raiseFail_out, hout]) (by split <;> rfl)

theorem raiseDone_transmitsOnce (hout : u.out = s.out) : TransmitsOnce s (raiseDone u) :=
  .of_silent (by rw [raiseDone_out, hout]) (by split <;> rfl)

theorem continueSend_transmitsOnce (hout : u.out = s.out) : TransmitsOnce s (continueSend u) := by
  obtain ⟨-, he⟩ | ⟨-, -, he⟩ | ⟨-, -, he⟩ := continueSend_cases u <;> rw [he]
  · exact raiseDone_transmitsOnce hout
  · exact .of_silent (congrArg (· ++ _) hout) rfl
  · exact .of_silent (congrArg (· ++ _) hout) rfl

theorem afterChunk_transmitsOnce (hout : u.out = s.out) (hcfg : u.cfg = s.cfg) : TransmitsOnce s (afterChunk u) := by
  obtain ⟨-, he⟩ | ⟨-, -, he⟩ | ⟨-, -, he⟩ := afterChunk_cases u <;> rw [he]
  · exact raiseDone_transmitsOnce hout
  · exact emitTx_transmitsOnce (u := setCredit u.bs u) _ rfl hout hcfg
  · exact .of_silent (congrArg (· ++ _) hout) rfl

theorem FrameEffect.transmitsOnce {f : TypedFrame} (he : FrameEffect s f t) : TransmitsOnce s t := by
  cases he with
  | dropped _ k hc => exact .of_silent rfl rfl
  | unsupported service pid extra hc => exact .of_silent rfl rfl
  | served service pid extra r d hc h1 h20 => exact emitTx_transmitsOnce d (by split <;> rfl) rfl rfl
  | failed _ k hc => exact raiseFail_transmitsOnce rfl k
  | single p hc hs hcap hfit => exact raiseDone_transmitsOnce rfl
  | first total p hc hs hcap => exact emitTx_transmitsOnce _ rfl rfl rfl
  | consecutive p u hc hs hle hcap hfit hu =>
    obtain ⟨hout, hcfg⟩ := hu.out_cfg
    exact afterChunk_transmitsOnce hout hcfg
  | granted bs stmin hc => exact continueSend_transmitsOnce rfl
  | waited bs stmin hc => exact .of_silent rfl rfl

theorem BlockMove.transmitsOnce (hm : BlockMove s t) : TransmitsOnce s t := by
  cases hm with
  | waits => exact .of_silent (List.append_nil _).symm rfl
  | accepted r rest d hc hhost => exact emitTx_transmitsOnce d rfl rfl rfl
  | txFailed rest delay hc hans => exact raiseFail_transmitsOnce (u := s.withTxAnswers rest delay) rfl _
  | awaitsResponse rest delay hc hans => exact .of_silent rfl rfl
  | singleSent rest delay hc hans => exact raiseDone_transmitsOnce rfl
  | firstSent rest delay hc hans => exact .of_silent rfl rfl
  | chunkSent rest delay u hc hans hle hu => exact continueSend_transmitsOnce hu.out_cfg.1
  | slept rest us d hc htimer hdue => exact emitTx_transmitsOnce d rfl rfl rfl
  | received d rest delay _ hv hlink ht => exact ht.transmitsOnce
  | foreign id d rest delay hv hlink hid => exact .of_silent rfl rfl
  | linkErrorDropped rest delay hc hlink => exact .of_silent rfl rfl
  | linkFailed k e rest delay hc hlink => exact raiseFail_transmitsOnce (u := s.withLink rest delay) rfl k

/-- A reset emits nothing, or the `RxReq` of the simulator's exit (R139). -/
theorem bootFrom_transmitsOnce (s : State) (linkOk : Bool) : TransmitsOnce s (s.bootFrom linkOk) := by
  unfold State.bootFrom
  split
  · exact .of_silent (List.append_nil _).symm rfl
  · exact .of_silent (List.append_nil _).symm rfl
  · exact .of_silent rfl rfl

end Transmits

/-- Settles O56: by whose turn the step is, and for the block's turn by its moves. -/
theorem oneTransmitOutstanding : Obligations.OneTransmitOutstanding := by
  intro s t h
  obtain ⟨-, hb⟩ | ⟨rest, -, hb⟩ | ⟨rpm, speed, rest, -, rfl⟩ | ⟨linkOk, rest, -, rfl⟩ := step_cases h
  · exact (blockStep_move hb).transmitsOnce
  · exact (blockStep_move hb).transmitsOnce
  · exact TransmitsOnce.of_silent (List.append_nil _).symm rfl
  · exact bootFrom_transmitsOnce (s.withAgenda rest) linkOk

end Sys2Proof.Machine
end

section
/-! O1, O4, O5, O7 and O30: what the decoder makes of a frame (R61 to R80). `View.overlay` is R74's "obd rows on top":
`decode_eq_overlay` says that every view's decoder is the frame rows' decoder with the view's obd rows laid over it, so a proof
about all views speaks of the frame rows alone. -/

namespace Sys2Proof

/-- Settles O1: the ten frames are closed terms, and the decoder computes. -/
theorem decodeReadsVectors : Obligations.DecodeReadsVectors := by
  unfold Obligations.DecodeReadsVectors
  decide

/-- Settles O5: `decode_typed` follows the branches of `Decode`. -/
theorem rowsRefineDecode : Obligations.RowsRefineDecode := Machine.decode_typed

/-- Settles O30: every row's arm is the one of its typed frame. -/
theorem effectDependsOnTypedFrame : Obligations.EffectDependsOnTypedFrame := by
  intro i j s h
  rw [Machine.exec_eq_execTyped, Machine.exec_eq_execTyped, h]

/-! ## The payload of a Single Frame -/

theorem length_sfPayload {d : Frame} (h : sfLen d ≤ 7) : (sfPayload d).length = sfLen d := by
  rw [sfPayload, List.length_take]
  exact Nat.min_eq_left h

theorem sfPayload_of_len_one {d : Frame} (h : sfLen d = 1) : sfPayload d = [d.d1] := by
  rw [sfPayload, h]
  rfl

/-- A payload of two or more bytes starts with the service and the PID (R71). -/
theorem sfPayload_of_two_le {d : Frame} (h : 2 ≤ sfLen d) : ∃ extra, sfPayload d = d.d1 :: d.d2 :: extra := by
  obtain ⟨n, hn⟩ := Nat.exists_eq_add_of_le' h
  rw [sfPayload, hn]
  exact ⟨_, rfl⟩

/-! ## The obd rows on top of the frame rows (R74) -/

/-- The row that a view's obd rows make of a frame row. -/
def View.overlay : View → Instr → Instr
  | .request, .sf p => requestRow p
  | .response, .sf p => responseRow p
  | .response, .ff total p =>
    if total = 20 ∧ p.p0 = 0x49 ∧ p.p1 = 0x02 ∧ p.p2 = 0x01 then .obdRspVinFf p.p3 p.p4 p.p5 else .ff total p
  | _, i => i

theorem decodeSf_eq_overlay (v : View) (d : Frame) : decodeSf v d = v.overlay (decodeSf .frame d) := by
  unfold decodeSf
  split
  · cases v <;> rfl
  · split <;> cases v <;> rfl

theorem decodeFf_eq_overlay (v : View) (d : Frame) : decodeFf v d = v.overlay (decodeFf .frame d) := by
  unfold decodeFf
  split
  · cases v <;> rfl
  · cases v <;> simp [View.overlay, Frame.from2]

theorem decodeFc_eq_overlay (v : View) (d : Frame) : decodeFc d = v.overlay (decodeFc d) := by
  unfold decodeFc
  repeat' split
  all_goals cases v <;> rfl

/-- The obd rows apply on top of a frame already classified (R74). -/
theorem decode_eq_overlay (v : View) (d : Frame) : decode v d = v.overlay (decode .frame d) := by
  unfold decode
  split
  · exact decodeSf_eq_overlay v d
  · split
    · exact decodeFf_eq_overlay v d
    · split
      · cases v <;> rfl
      · split
        · exact decodeFc_eq_overlay v d
        · split <;> cases v <;> rfl

/-! ## The ranges of the fields (R62 to R65, R68) -/

/-- The fields are in the ranges of the row, and the view shows the row. -/
def Instr.Legal (v : View) (i : Instr) : Prop := i.wf = true ∧ i.visibleIn v = true

/-- What is left of a nibble once the values 0..3 are told apart (R75, R79). -/
theorem four_le_nibble : ∀ {n : Nibble}, n ≠ 0 → n ≠ 1 → n ≠ 2 → n ≠ 3 → 4 ≤ n.toNat := by
  decide

theorem decodeSf_legal (d : Frame) : (decodeSf .frame d).Legal .frame := by
  unfold decodeSf
  split_ifs with h0 h7
  · exact ⟨rfl, rfl⟩
  · exact ⟨decide_eq_true (Nat.succ_le_of_lt h7), rfl⟩
  · have hlen := length_sfPayload (Nat.le_of_not_lt h7)
    refine ⟨?_, rfl⟩
    simp only [Instr.wf, hlen, Bool.and_eq_true, decide_eq_true_eq]
    omega

theorem decodeFf_legal (d : Frame) : (decodeFf .frame d).Legal .frame := by
  unfold decodeFf
  split
  · next h7 => exact ⟨decide_eq_true h7, rfl⟩
  · next h7 => exact ⟨decide_eq_true (Nat.lt_of_not_le h7), rfl⟩

theorem decodeFc_legal (d : Frame) : (decodeFc d).Legal .frame := by
  unfold decodeFc
  split_ifs with h0 h1 h2 h3 h7
  · exact ⟨rfl, rfl⟩
  · exact ⟨rfl, rfl⟩
  · exact ⟨rfl, rfl⟩
  · exact ⟨rfl, rfl⟩
  · have h4 := four_le_nibble h0 h1 h2 h3
    exact ⟨by simp only [Instr.wf, h4, h7, decide_true, Bool.and_true], rfl⟩
  · exact ⟨decide_eq_true (Nat.lt_of_not_le h7), rfl⟩

theorem decode_frame_legal (d : Frame) : (decode .frame d).Legal .frame := by
  unfold decode
  split_ifs with h0 h1 h2 h3 h7
  · exact decodeSf_legal d
  · exact decodeFf_legal d
  · exact ⟨rfl, rfl⟩
  · exact decodeFc_legal d
  · have h4 := four_le_nibble h0 h1 h2 h3
    exact ⟨by simp only [Instr.wf, h4, h7, decide_true, Bool.and_true], rfl⟩
  · exact ⟨decide_eq_true (Nat.lt_of_not_le h7), rfl⟩

theorem requestRow_legal {p : List Byte} (h : (Instr.sf p).wf = true) : (requestRow p).Legal .request := by
  simp only [Instr.wf, Bool.and_eq_true, decide_eq_true_eq] at h
  obtain ⟨h1, h7⟩ := h
  match p with
  | [] => simp at h1
  | [_] => exact ⟨rfl, rfl⟩
  | service :: pid :: extra =>
    have hextra : extra.length ≤ 5 := by
      simp only [List.length_cons] at h7
      omega
    simp only [requestRow]
    split_ifs with hrpm hspeed hvin
    · exact ⟨decide_eq_true hextra, rfl⟩
    · exact ⟨decide_eq_true hextra, rfl⟩
    · exact ⟨decide_eq_true hextra, rfl⟩
    · have hother : obdSupported service pid = false := by
        simp only [obdSupported, beq_eq_decide, ← Bool.decide_and, hrpm, hspeed, hvin, decide_false, Bool.or_self]
      exact ⟨by simp only [Instr.wf, hother, decide_eq_true hextra]; rfl, rfl⟩

/-- A payload that is none of the two known responses has no row of its own (R72). -/
theorem responseRow_eq_sf {p : List Byte} (hrpm : ∀ a b, p ≠ [0x41, 0x0C, a, b]) (hspeed : ∀ a, p ≠ [0x41, 0x0D, a]) :
    responseRow p = .sf p := by
  unfold responseRow
  split
  · exact if_neg fun ⟨ha, hb⟩ => hspeed _ (by rw [ha, hb])
  · exact if_neg fun ⟨ha, hb⟩ => hrpm _ _ (by rw [ha, hb])
  · rfl

theorem responseRow_legal {p : List Byte} (h : (Instr.sf p).wf = true) : (responseRow p).Legal .response := by
  by_cases hrpm : ∃ a b, p = [0x41, 0x0C, a, b]
  · obtain ⟨a, b, rfl⟩ := hrpm
    exact ⟨rfl, rfl⟩
  by_cases hspeed : ∃ a, p = [0x41, 0x0D, a]
  · obtain ⟨a, rfl⟩ := hspeed
    exact ⟨rfl, rfl⟩
  have hsf : responseRow p = .sf p := by
    push Not at hrpm hspeed
    exact responseRow_eq_sf hrpm hspeed
  rw [hsf]
  exact ⟨h, decide_eq_true hsf⟩

theorem overlay_ff_legal (v : View) {total : Len} {p : Bytes6} (h : (Instr.ff total p).wf = true) :
    (v.overlay (.ff total p)).Legal v := by
  cases v with
  | frame => exact ⟨h, rfl⟩
  | request => exact ⟨h, rfl⟩
  | response =>
    simp only [View.overlay]
    split
    · exact ⟨rfl, rfl⟩
    · next hvin => exact ⟨h, by simpa [Instr.visibleIn, or_assoc, imp_iff_not_or] using hvin⟩

/-- Laying the obd rows over a frame row keeps the ranges, and the view shows the outcome. -/
theorem View.overlay_legal (v : View) {i : Instr} (h : i.Legal .frame) : (v.overlay i).Legal v := by
  obtain ⟨hwf, hvis⟩ := h
  cases i with
  | sf p =>
    cases v with
    | frame => exact ⟨hwf, hvis⟩
    | request => exact requestRow_legal hwf
    | response => exact responseRow_legal hwf
  | ff total p => exact overlay_ff_legal v hwf
  | sfLen0Invalid | sfLen8To15Invalid | ffShortInvalid | cf | fcCts | fcWait | fcOvf | fcRsv3Invalid | fcRsv4To7Invalid
  | fcRsv8To15Invalid | pci4To7Invalid | pci8ToFInvalid => cases v <;> exact ⟨hwf, rfl⟩
  | obdReqRpm | obdReqSpeed | obdReqVin | obdReqOther | obdReqShort | obdRspRpm | obdRspSpeed | obdRspVinFf => cases hvis

/-- Settles O4: the frame rows are legal, and laying the obd rows over them keeps them so. -/
theorem decodedIsWellFormed : Obligations.DecodedIsWellFormed := by
  intro v d
  rw [decode_eq_overlay]
  exact v.overlay_legal (decode_frame_legal d)

/-! ## The bytes that carry fields (R69) -/

/-- The two frames have the same first `n` bytes. -/
def Frame.AgreeOn (n : Nat) (d' d : Frame) : Prop := d'.toList.take n = d.toList.take n

section Agree
variable {d d' : Frame}

theorem Frame.AgreeOn.mono {m n : Nat} (h : d'.AgreeOn n d) (hmn : m ≤ n) : d'.AgreeOn m d := by
  have hm := congrArg (List.take m) h
  rwa [List.take_take, List.take_take, Nat.min_eq_left hmn] at hm

theorem Frame.AgreeOn.d0 {n : Nat} (h : d'.AgreeOn n d) (hn : 1 ≤ n) : d'.d0 = d.d0 := by
  simpa [AgreeOn, Frame.toList] using h.mono hn

theorem Frame.AgreeOn.d1 {n : Nat} (h : d'.AgreeOn n d) (hn : 2 ≤ n) : d'.d1 = d.d1 := by
  simpa [AgreeOn, Frame.toList, h.d0 (by omega)] using h.mono hn

theorem Frame.AgreeOn.d2 {n : Nat} (h : d'.AgreeOn n d) (hn : 3 ≤ n) : d'.d2 = d.d2 := by
  simpa [AgreeOn, Frame.toList, h.d0 (by omega), h.d1 (by omega)] using h.mono hn

theorem Frame.AgreeOn.eq (h : d'.AgreeOn 8 d) : d' = d := by
  cases d'
  cases d
  simpa [AgreeOn, Frame.toList] using h

/-- The bytes after the PCI are read as the payload's. -/
theorem Frame.AgreeOn.payload {n : Nat} (h : d'.AgreeOn (n + 1) d) : d'.from1.toList.take n = d.from1.toList.take n :=
  List.tail_eq_of_cons_eq h

theorem fieldBytes_pos (d : Frame) : 1 ≤ fieldBytes d := by
  unfold fieldBytes
  split
  · omega
  · omega
  · omega
  · omega
  · split <;> omega

theorem decodeSf_eq_of_agree (hk : d.kind = 0) (h : d'.AgreeOn (fieldBytes d) d) :
    decodeSf .frame d' = decodeSf .frame d := by
  have h0 : loNibble d'.d0 = loNibble d.d0 := congrArg _ (h.d0 (fieldBytes_pos d))
  have hlen : sfLen d' = sfLen d := congrArg BitVec.toNat h0
  unfold decodeSf
  rw [hlen, h0]
  split_ifs with hz h7
  · rfl
  · rfl
  · have hf : fieldBytes d = sfLen d + 1 := by
      have hp := length_sfPayload (Nat.le_of_not_lt h7)
      simp [fieldBytes, typedFrame, hk, typedSf, hz, h7, hp, Nat.add_comm]
    rw [hf] at h
    have hp : sfPayload d' = sfPayload d := by rw [sfPayload, sfPayload, hlen, h.payload]
    rw [hp]

theorem decodeFf_eq_of_agree (hk : d.kind = 1) (h : d'.AgreeOn (fieldBytes d) d) :
    decodeFf .frame d' = decodeFf .frame d := by
  by_cases h7 : (ffTotal d).toNat ≤ 7
  · have hf : fieldBytes d = 2 := by simp [fieldBytes, typedFrame, hk, typedFf, h7]
    have htotal : ffTotal d' = ffTotal d := by rw [ffTotal, ffTotal, h.d0 (by omega), h.d1 (by omega)]
    rw [decodeFf, decodeFf, htotal, if_pos h7, if_pos h7]
  · have hf : fieldBytes d = 8 := by simp [fieldBytes, typedFrame, hk, typedFf, h7]
    rw [hf] at h
    rw [h.eq]

theorem decodeFc_eq_of_agree (hk : d.kind = 3) (h : d'.AgreeOn (fieldBytes d) d) : decodeFc d' = decodeFc d := by
  have hbytes : ∀ fs, typedFc d = .fc fs d.d1 d.d2 → d'.d1 = d.d1 ∧ d'.d2 = d.d2 := by
    intro fs hfs
    have hf : fieldBytes d = 3 := by simp [fieldBytes, typedFrame, hk, hfs]
    exact ⟨h.d1 (by omega), h.d2 (by omega)⟩
  unfold decodeFc
  rw [h.d0 (fieldBytes_pos d)]
  split_ifs with hcts hwait hovf
  · obtain ⟨h1, h2⟩ := hbytes .cts (by rw [typedFc, if_pos hcts])
    rw [h1, h2]
  · obtain ⟨h1, h2⟩ := hbytes .wait (by rw [typedFc, if_neg hcts, if_pos hwait])
    rw [h1, h2]
  · obtain ⟨h1, h2⟩ := hbytes .ovf (by rw [typedFc, if_neg hcts, if_neg hwait, if_pos hovf])
    rw [h1, h2]
  all_goals rfl

theorem decode_frame_eq_of_agree (h : d'.AgreeOn (fieldBytes d) d) : decode .frame d' = decode .frame d := by
  have hkind : d'.kind = d.kind := congrArg hiNibble (h.d0 (fieldBytes_pos d))
  unfold decode
  rw [hkind]
  split_ifs with h0 h1 h2 h3 h7
  · exact decodeSf_eq_of_agree h0 h
  · exact decodeFf_eq_of_agree h1 h
  · have hf : fieldBytes d = 8 := by simp [fieldBytes, typedFrame, h2]
    rw [hf] at h
    rw [h.eq]
  · exact decodeFc_eq_of_agree h3 h
  · rfl
  · rfl

end Agree

/-- Settles O7: every row of the frame layer reads the bytes that `fieldBytes` counts, and the obd rows read the row's fields. -/
theorem fillBytesAreIgnored : Obligations.FillBytesAreIgnored := by
  intro v d d' h
  rw [decode_eq_overlay v d', decode_eq_overlay v d, decode_frame_eq_of_agree h]

end Sys2Proof
end

section
/-! O6: the decoder against the match and mask columns of spec/opcode_table.json (R74). A row's match is read byte by byte, the
masks of the first byte become ranges of its two nibbles, and `decode_eq_overlay` lays the obd rows over the frame rows. -/

namespace Sys2Proof

/-! ## A match, byte by byte -/

theorem Frame.toWord_ofWord (w : FrameWord) : (Frame.ofWord w).toWord = w := by
  simp only [Frame.ofWord, Frame.toWord]
  repeat rw [BitVec.extractLsb'_append_extractLsb'_eq_extractLsb' (by rfl)]
  exact BitVec.extractLsb'_eq_self

theorem Frame.ofWord_inj {v w : FrameWord} : Frame.ofWord v = Frame.ofWord w ↔ v = w :=
  ⟨fun h => by rw [← Frame.toWord_ofWord v, h, Frame.toWord_ofWord], congrArg _⟩

/-- The bits of a frame that a mask keeps. -/
def Frame.masked (d m : Frame) : Frame where
  d0 := d.d0 &&& m.d0
  d1 := d.d1 &&& m.d1
  d2 := d.d2 &&& m.d2
  d3 := d.d3 &&& m.d3
  d4 := d.d4 &&& m.d4
  d5 := d.d5 &&& m.d5
  d6 := d.d6 &&& m.d6
  d7 := d.d7 &&& m.d7

theorem Frame.ofWord_and (w m : FrameWord) : Frame.ofWord (w &&& m) = (Frame.ofWord w).masked (Frame.ofWord m) := by
  simp only [Frame.ofWord, Frame.masked, BitVec.extractLsb'_and]

theorem TableRow.matchesWord_iff (r : TableRow) (w : FrameWord) :
    r.matchesWord w = true ↔ (Frame.ofWord w).masked (Frame.ofWord r.mask) = Frame.ofWord r.pattern := by
  rw [TableRow.matchesWord, beq_iff_eq, ← Frame.ofWord_and, Frame.ofWord_inj]

/-- The mnemonic of the first row that matches a frame. -/
def firstMatch : List TableRow → Frame → Option String
  | [], _ => none
  | r :: rows, d =>
    if d.masked (Frame.ofWord r.mask) = Frame.ofWord r.pattern then some r.mnemonic else firstMatch rows d

theorem find?_matchesWord (rows : List TableRow) (w : FrameWord) :
    (rows.find? (·.matchesWord w)).map (·.mnemonic) = firstMatch rows (Frame.ofWord w) := by
  induction rows with
  | nil => rfl
  | cons r rows ih =>
    rw [firstMatch, List.find?_cons, ← ih]
    by_cases hr : r.matchesWord w = true
    · rw [if_pos ((r.matchesWord_iff w).1 hr), hr]
      rfl
    · rw [if_neg fun h => hr ((r.matchesWord_iff w).2 h), Bool.eq_false_of_not_eq_true hr]

/-! ## The masks of the first byte -/

/-- What each mask of the table reads of a first byte, in its two nibbles (R60, R62 to R65, R68). -/
theorem pciMask_eq_iff (b : Byte) :
    (b &&& 0x80#8 = 0x80#8 ↔ 8 ≤ (hiNibble b).toNat) ∧
    (b &&& 0xC0#8 = 0x40#8 ↔ 4 ≤ (hiNibble b).toNat ∧ (hiNibble b).toNat ≤ 7) ∧
    (b &&& 0xF0#8 = 0x00#8 ↔ hiNibble b = 0) ∧
    (b &&& 0xF0#8 = 0x10#8 ↔ hiNibble b = 1) ∧
    (b &&& 0xF0#8 = 0x20#8 ↔ hiNibble b = 2) ∧
    (b &&& 0xF8#8 = 0x08#8 ↔ hiNibble b = 0 ∧ 7 < (loNibble b).toNat) ∧
    (b &&& 0xF8#8 = 0x38#8 ↔ hiNibble b = 3 ∧ 7 < (loNibble b).toNat) ∧
    (b &&& 0xFC#8 = 0x34#8 ↔ hiNibble b = 3 ∧ 4 ≤ (loNibble b).toNat ∧ (loNibble b).toNat ≤ 7) := by
  revert b
  decide

/-- The first bytes that the table gives in full: a type and a length or status. -/
theorem pciByte_eq_iff (b : Byte) :
    (b = 0x00#8 ↔ hiNibble b = 0 ∧ loNibble b = 0) ∧ (b = 0x01#8 ↔ hiNibble b = 0 ∧ loNibble b = 1) ∧
    (b = 0x03#8 ↔ hiNibble b = 0 ∧ loNibble b = 3) ∧ (b = 0x04#8 ↔ hiNibble b = 0 ∧ loNibble b = 4) ∧
    (b = 0x10#8 ↔ hiNibble b = 1 ∧ loNibble b = 0) ∧
    (b = 0x30#8 ↔ hiNibble b = 3 ∧ loNibble b = 0) ∧ (b = 0x31#8 ↔ hiNibble b = 3 ∧ loNibble b = 1) ∧
    (b = 0x32#8 ↔ hiNibble b = 3 ∧ loNibble b = 2) ∧ (b = 0x33#8 ↔ hiNibble b = 3 ∧ loNibble b = 3) := by
  revert b
  decide

@[simp] theorem byte_and_ff (b : Byte) : b &&& 0xFF#8 = b := BitVec.and_allOnes

theorem byte_and_f8_eq_zero (b : Byte) : b &&& 0xF8#8 = 0#8 ↔ b.toNat ≤ 7 := by
  revert b
  decide

theorem sfLen_eq_iff (d : Frame) {n : Nat} (hn : n < 16) : sfLen d = n ↔ loNibble d.d0 = BitVec.ofNat 4 n := by
  rw [sfLen, ← BitVec.toNat_inj, BitVec.toNat_ofNat, Nat.mod_eq_of_lt hn]

theorem ffTotal_le_seven (d : Frame) : (ffTotal d).toNat ≤ 7 ↔ loNibble d.d0 = 0#4 ∧ d.d1.toNat ≤ 7 := by
  have hlo : loNibble d.d0 = 0#4 ↔ (loNibble d.d0).toNat = 0 := BitVec.toNat_inj.symm
  rw [ffTotal_toNat, hlo]
  omega

/-- A nibble of 4 or more is none of the four that name a type or a legal status. -/
theorem ne_of_four_le : ∀ {n : Nibble}, 4 ≤ n.toNat → n ≠ 0#4 ∧ n ≠ 1#4 ∧ n ≠ 2#4 ∧ n ≠ 3#4 := by
  decide

/-! ## The frame rows -/

/-- The match and mask columns of the frame rows, read in the nibbles of the first byte. -/
theorem firstMatch_frameRows_nibbles (d : Frame) :
    firstMatch frameRows d =
      if hiNibble d.d0 = 0#4 ∧ loNibble d.d0 = 0#4 then some "SF_LEN0_INVALID"
      else if hiNibble d.d0 = 0#4 ∧ 7 < (loNibble d.d0).toNat then some "SF_LEN8_15_INVALID"
      else if hiNibble d.d0 = 0#4 then some "SF"
      else if hiNibble d.d0 = 1#4 ∧ (ffTotal d).toNat ≤ 7 then some "FF_SHORT_INVALID"
      else if hiNibble d.d0 = 1#4 then some "FF"
      else if hiNibble d.d0 = 2#4 then some "CF"
      else if hiNibble d.d0 = 3#4 ∧ loNibble d.d0 = 0#4 then some "FC_CTS"
      else if hiNibble d.d0 = 3#4 ∧ loNibble d.d0 = 1#4 then some "FC_WAIT"
      else if hiNibble d.d0 = 3#4 ∧ loNibble d.d0 = 2#4 then some "FC_OVF"
      else if hiNibble d.d0 = 3#4 ∧ loNibble d.d0 = 3#4 then some "FC_RSV_3_INVALID"
      else if hiNibble d.d0 = 3#4 ∧ 4 ≤ (loNibble d.d0).toNat ∧ (loNibble d.d0).toNat ≤ 7 then
        some "FC_RSV_4_7_INVALID"
      else if hiNibble d.d0 = 3#4 ∧ 7 < (loNibble d.d0).toNat then some "FC_RSV_8_15_INVALID"
      else if 4 ≤ (hiNibble d.d0).toNat ∧ (hiNibble d.d0).toNat ≤ 7 then some "PCI_4_7_INVALID"
      else if 8 ≤ (hiNibble d.d0).toNat then some "PCI_8_F_INVALID"
      else none := by
  simp [firstMatch, frameRows, Frame.masked, Frame.ofWord, pciMask_eq_iff d.d0, pciByte_eq_iff d.d0, byte_and_f8_eq_zero,
    ffTotal_le_seven, and_assoc]

theorem firstMatch_frameRows_sf {d : Frame} (hk : hiNibble d.d0 = 0) :
    firstMatch frameRows d = some (decodeSf .frame d).mnemonic := by
  unfold decodeSf
  split_ifs with h0 h7
  · have hlo := (sfLen_eq_iff d (by omega)).1 h0
    simp [firstMatch_frameRows_nibbles, hk, hlo, Instr.mnemonic]
  · have hlo := mt (sfLen_eq_iff d (by omega)).2 h0
    rw [sfLen] at h7
    simp [firstMatch_frameRows_nibbles, hk, hlo, h7, Instr.mnemonic]
  · have hlo := mt (sfLen_eq_iff d (by omega)).2 h0
    rw [sfLen] at h7
    simp [firstMatch_frameRows_nibbles, hk, hlo, h7, Instr.mnemonic]

theorem firstMatch_frameRows_ff {d : Frame} (hk : hiNibble d.d0 = 1) :
    firstMatch frameRows d = some (decodeFf .frame d).mnemonic := by
  by_cases h7 : (ffTotal d).toNat ≤ 7
  · simp [firstMatch_frameRows_nibbles, decodeFf, hk, h7, Instr.mnemonic]
  · simp [firstMatch_frameRows_nibbles, decodeFf, hk, h7, Instr.mnemonic]

theorem firstMatch_frameRows_fc {d : Frame} (hk : hiNibble d.d0 = 3) :
    firstMatch frameRows d = some (decodeFc d).mnemonic := by
  unfold decodeFc
  split_ifs with h0 h1 h2 h3 h7
  · simp [firstMatch_frameRows_nibbles, hk, h0, Instr.mnemonic]
  · simp [firstMatch_frameRows_nibbles, hk, h1, Instr.mnemonic]
  · simp [firstMatch_frameRows_nibbles, hk, h2, Instr.mnemonic]
  · simp [firstMatch_frameRows_nibbles, hk, h3, Instr.mnemonic]
  · have h4 := four_le_nibble h0 h1 h2 h3
    simp [firstMatch_frameRows_nibbles, hk, ne_of_four_le h4, h4, h7, Instr.mnemonic]
  · have h4 := four_le_nibble h0 h1 h2 h3
    simp [firstMatch_frameRows_nibbles, hk, ne_of_four_le h4, h7, Nat.lt_of_not_le h7, Instr.mnemonic]

theorem firstMatch_frameRows_pci4To7 {d : Frame} (h4 : 4 ≤ (hiNibble d.d0).toNat) (h7 : (hiNibble d.d0).toNat ≤ 7) :
    firstMatch frameRows d = some "PCI_4_7_INVALID" := by
  simp [firstMatch_frameRows_nibbles, ne_of_four_le h4, h4, h7]

theorem firstMatch_frameRows_pci8ToF {d : Frame} (h8 : 8 ≤ (hiNibble d.d0).toNat) :
    firstMatch frameRows d = some "PCI_8_F_INVALID" := by
  have h4 : 4 ≤ (hiNibble d.d0).toNat := by omega
  have h7 : ¬ (hiNibble d.d0).toNat ≤ 7 := by omega
  simp [firstMatch_frameRows_nibbles, ne_of_four_le h4, h7, h8]

theorem firstMatch_frameRows (d : Frame) : firstMatch frameRows d = some (decode .frame d).mnemonic := by
  unfold decode
  split_ifs with h0 h1 h2 h3 h7
  · exact firstMatch_frameRows_sf h0
  · exact firstMatch_frameRows_ff h1
  · have hk : hiNibble d.d0 = 2 := h2
    simp [firstMatch_frameRows_nibbles, hk, Instr.mnemonic]
  · exact firstMatch_frameRows_fc h3
  · exact firstMatch_frameRows_pci4To7 (four_le_nibble h0 h1 h2 h3) h7
  · exact firstMatch_frameRows_pci8ToF (Nat.lt_of_not_le h7)

/-! ## The frames on which the obd rows lie -/

/-- Every other leaf of the decoder is another row (R76). -/
theorem decode_frame_eq_sf_iff {d : Frame} {p : List Byte} :
    decode .frame d = .sf p ↔ d.kind = 0 ∧ sfLen d ≠ 0 ∧ sfLen d ≤ 7 ∧ sfPayload d = p := by
  unfold decode decodeSf decodeFf decodeFc
  split_ifs <;> simp_all

theorem decode_frame_eq_sf_iff_take {d : Frame} {p : List Byte} (h0 : p.length ≠ 0) (h7 : p.length ≤ 7) :
    decode .frame d = .sf p ↔ (d.kind = 0 ∧ sfLen d = p.length) ∧ d.from1.toList.take p.length = p := by
  rw [decode_frame_eq_sf_iff]
  constructor
  · rintro ⟨hk, -, h7', rfl⟩
    rw [length_sfPayload h7']
    exact ⟨⟨hk, rfl⟩, rfl⟩
  · rintro ⟨⟨hk, hlen⟩, hp⟩
    rw [← hlen] at h0 h7 hp
    exact ⟨hk, h0, h7, hp⟩

/-- Every other leaf of the decoder is another row (R77). -/
theorem decode_frame_eq_ff_iff {d : Frame} {total : Len} {p : Bytes6} :
    decode .frame d = .ff total p ↔ d.kind = 1 ∧ 7 < (ffTotal d).toNat ∧ ffTotal d = total ∧ d.from2 = p := by
  unfold decode decodeSf decodeFf decodeFc
  split_ifs <;> simp_all

/-! ## The request rows -/

theorem mnemonic_eq_sf_iff (i : Instr) : i.mnemonic = "SF" ↔ ∃ p, i = .sf p := by
  cases i <;> simp [Instr.mnemonic]

theorem firstMatch_requestRows {d : Frame} (hk : hiNibble d.d0 = 0) (h0 : sfLen d ≠ 0) :
    firstMatch requestRows d = some (requestRow (sfPayload d)).mnemonic := by
  have hrows : firstMatch requestRows d =
      if loNibble d.d0 = 1#4 then some "OBD_REQ_SHORT"
      else if d.d1 = 0x01 ∧ d.d2 = 0x0C then some "OBD_REQ_RPM"
      else if d.d1 = 0x01 ∧ d.d2 = 0x0D then some "OBD_REQ_SPEED"
      else if d.d1 = 0x09 ∧ d.d2 = 0x02 then some "OBD_REQ_VIN"
      else some "OBD_REQ_OTHER" := by
    simp [firstMatch, requestRows, Frame.masked, Frame.ofWord, pciMask_eq_iff d.d0, pciByte_eq_iff d.d0, hk]
  rw [hrows]
  by_cases h1 : sfLen d = 1
  · rw [sfPayload_of_len_one h1, if_pos ((sfLen_eq_iff d (by omega)).1 h1)]
    rfl
  · obtain ⟨extra, hp⟩ := sfPayload_of_two_le (d := d) (by omega)
    rw [hp, if_neg (mt (sfLen_eq_iff d (by omega)).2 h1)]
    simp only [requestRow]
    split_ifs <;> rfl

theorem View.overlay_request_eq_self {i : Instr} (hsf : ∀ p, i ≠ .sf p) : View.request.overlay i = i := by
  cases i with
  | sf p => exact absurd rfl (hsf p)
  | _ => rfl

theorem tableMnemonic_request (w : FrameWord) :
    tableMnemonic .request w =
      if firstMatch frameRows (Frame.ofWord w) = some "SF" then firstMatch requestRows (Frame.ofWord w)
      else firstMatch frameRows (Frame.ofWord w) := by
  simp only [tableMnemonic, find?_matchesWord]

theorem tableMnemonic_request_eq_decode (w : FrameWord) :
    tableMnemonic .request w = some (decode .request (Frame.ofWord w)).mnemonic := by
  rw [tableMnemonic_request, firstMatch_frameRows, decode_eq_overlay .request]
  generalize Frame.ofWord w = d
  by_cases hsf : ∃ p, decode .frame d = .sf p
  · rw [if_pos (congrArg some ((mnemonic_eq_sf_iff _).2 hsf))]
    obtain ⟨p, hp⟩ := hsf
    obtain ⟨hk, h0, -, rfl⟩ := decode_frame_eq_sf_iff.1 hp
    rw [firstMatch_requestRows hk h0, hp]
    rfl
  · rw [if_neg fun h => hsf ((mnemonic_eq_sf_iff _).1 (Option.some_inj.1 h)),
      View.overlay_request_eq_self fun p hp => hsf ⟨p, hp⟩]

/-! ## The response rows -/

theorem firstMatch_responseRows (d : Frame) :
    firstMatch responseRows d =
      if d.d0 = 0x04 ∧ d.d1 = 0x41 ∧ d.d2 = 0x0C then some "OBD_RSP_RPM"
      else if d.d0 = 0x03 ∧ d.d1 = 0x41 ∧ d.d2 = 0x0D then some "OBD_RSP_SPEED"
      else if d.d0 = 0x10 ∧ d.d1 = 0x14 ∧ d.d2 = 0x49 ∧ d.d3 = 0x02 ∧ d.d4 = 0x01 then some "OBD_RSP_VIN_FF"
      else none := by
  simp [firstMatch, responseRows, Frame.masked, Frame.ofWord]

/-- The PCI of a Single Frame of length 4 or 3 (R72). -/
theorem pciByte_sf_iff (d : Frame) :
    (d.d0 = 0x04 ↔ d.kind = 0 ∧ sfLen d = 4) ∧ (d.d0 = 0x03 ↔ d.kind = 0 ∧ sfLen d = 3) := by
  rw [sfLen_eq_iff d (by omega), sfLen_eq_iff d (by omega)]
  simp [pciByte_eq_iff d.d0, Frame.kind]

theorem decode_frame_eq_rspRpm_iff (d : Frame) :
    (∃ a b, decode .frame d = .sf [0x41, 0x0C, a, b]) ↔ d.d0 = 0x04 ∧ d.d1 = 0x41 ∧ d.d2 = 0x0C := by
  rw [(pciByte_sf_iff d).1]
  simp [decode_frame_eq_sf_iff_take, Frame.from1, Bytes7.toList]

theorem decode_frame_eq_rspSpeed_iff (d : Frame) :
    (∃ a, decode .frame d = .sf [0x41, 0x0D, a]) ↔ d.d0 = 0x03 ∧ d.d1 = 0x41 ∧ d.d2 = 0x0D := by
  rw [(pciByte_sf_iff d).2]
  simp [decode_frame_eq_sf_iff_take, Frame.from1, Bytes7.toList]

/-- The PCI of a First Frame of total 20 (R111). -/
theorem pciBytes_ff_twenty_iff (d : Frame) : (d.d0 = 0x10 ∧ d.d1 = 0x14) ↔ d.kind = 1 ∧ ffTotal d = 20 := by
  have hpci : d.d0 = 0x10 ↔ d.kind = 1 ∧ loNibble d.d0 = 0 := by simp [pciByte_eq_iff d.d0, Frame.kind]
  have htotal : ffTotal d = 20 ↔ loNibble d.d0 = 0 ∧ d.d1 = 0x14 := by
    have hlo : loNibble d.d0 = 0 ↔ (loNibble d.d0).toNat = 0 := BitVec.toNat_inj.symm
    have h1 : d.d1 = 0x14 ↔ d.d1.toNat = 20 := BitVec.toNat_inj.symm
    have h : ffTotal d = 20 ↔ (ffTotal d).toNat = 20 := BitVec.toNat_inj.symm
    have hlt := d.d1.isLt
    rw [h, ffTotal_toNat, hlo, h1]
    omega
  rw [hpci, htotal, and_assoc]

theorem decode_frame_eq_rspVinFf_iff (d : Frame) :
    (∃ a b c, decode .frame d = .ff 20 ⟨0x49, 0x02, 0x01, a, b, c⟩) ↔
      d.d0 = 0x10 ∧ d.d1 = 0x14 ∧ d.d2 = 0x49 ∧ d.d3 = 0x02 ∧ d.d4 = 0x01 := by
  rw [← and_assoc (a := d.d0 = 0x10), pciBytes_ff_twenty_iff]
  simp only [decode_frame_eq_ff_iff]
  constructor
  · rintro ⟨a, b, c, hk, -, htotal, hp⟩
    simp only [Frame.from2, Bytes6.mk.injEq] at hp
    obtain ⟨h2, h3, h4, -⟩ := hp
    exact ⟨⟨hk, htotal⟩, h2, h3, h4⟩
  · rintro ⟨⟨hk, htotal⟩, h2, h3, h4⟩
    refine ⟨d.d5, d.d6, d.d7, hk, by rw [htotal]; decide, htotal, ?_⟩
    rw [Frame.from2, h2, h3, h4]

theorem View.overlay_response_eq_self {i : Instr} (hrpm : ∀ a b, i ≠ .sf [0x41, 0x0C, a, b])
    (hspeed : ∀ a, i ≠ .sf [0x41, 0x0D, a]) (hvin : ∀ a b c, i ≠ .ff 20 ⟨0x49, 0x02, 0x01, a, b, c⟩) :
    View.response.overlay i = i := by
  cases i with
  | sf p => exact responseRow_eq_sf (fun a b hp => hrpm a b (by rw [hp])) (fun a hp => hspeed a (by rw [hp]))
  | ff total p =>
    obtain ⟨p0, p1, p2, a, b, c⟩ := p
    refine if_neg ?_
    rintro ⟨rfl, rfl, rfl, rfl⟩
    exact hvin a b c rfl
  | _ => rfl

theorem tableMnemonic_response (w : FrameWord) :
    tableMnemonic .response w = (firstMatch responseRows (Frame.ofWord w)).or (firstMatch frameRows (Frame.ofWord w)) := by
  simp only [tableMnemonic, ← find?_matchesWord]
  cases responseRows.find? (·.matchesWord w) <;> rfl

theorem tableMnemonic_response_eq_decode (w : FrameWord) :
    tableMnemonic .response w = some (decode .response (Frame.ofWord w)).mnemonic := by
  rw [tableMnemonic_response, firstMatch_frameRows, firstMatch_responseRows, decode_eq_overlay .response]
  generalize Frame.ofWord w = d
  simp only [← decode_frame_eq_rspRpm_iff, ← decode_frame_eq_rspSpeed_iff, ← decode_frame_eq_rspVinFf_iff]
  split_ifs with hrpm hspeed hvin
  · obtain ⟨a, b, h⟩ := hrpm
    rw [h]
    rfl
  · obtain ⟨a, h⟩ := hspeed
    rw [h]
    rfl
  · obtain ⟨a, b, c, h⟩ := hvin
    rw [h]
    rfl
  · rw [View.overlay_response_eq_self (fun a b h => hrpm ⟨a, b, h⟩) (fun a h => hspeed ⟨a, h⟩)
      (fun a b c h => hvin ⟨a, b, c, h⟩)]
    rfl

/-- Settles O6: by the view; the frame rows first, then the obd rows on top of them. -/
theorem decoderAgreesWithOpcodeTable : Obligations.DecoderAgreesWithOpcodeTable := by
  intro v w
  cases v with
  | frame => exact (find?_matchesWord frameRows w).trans (firstMatch_frameRows _)
  | request => exact tableMnemonic_request_eq_decode w
  | response => exact tableMnemonic_response_eq_decode w

end Sys2Proof
end

section
/-! O3: the decoder reads back what the encoder of instructions writes. `Instr.frameRow` names the frame row that an obd row sits
on (R74); both have one encoding, so `decode_frame_encode` speaks of the frame rows alone, and `overlay_frameRow` lays the view's
obd rows back on top. -/

namespace Sys2Proof

/-! ## The decoder, by the type of the frame (R75) -/

section Kinds
variable {v : View} {d : Frame}

theorem decode_of_kind_zero (h : d.kind = 0) : decode v d = decodeSf v d := by
  rw [decode, if_pos h]

theorem decode_of_kind_one (h : d.kind = 1) : decode v d = decodeFf v d := by
  simp [decode, h]

theorem decode_of_kind_two (h : d.kind = 2) : decode v d = .cf (loNibble d.d0) d.from1 := by
  simp [decode, h]

theorem decode_of_kind_three (h : d.kind = 3) : decode v d = decodeFc d := by
  simp [decode, h]

theorem decode_of_four_le_kind (h : 4 ≤ d.kind.toNat) :
    decode v d = if d.kind.toNat ≤ 7 then .pci4To7Invalid d.kind else .pci8ToFInvalid d.kind := by
  simp [decode, ne_of_four_le h]

theorem decodeFc_of_four_le (h : 4 ≤ (loNibble d.d0).toNat) :
    decodeFc d =
      if (loNibble d.d0).toNat ≤ 7 then .fcRsv4To7Invalid (loNibble d.d0) else .fcRsv8To15Invalid (loNibble d.d0) := by
  simp [decodeFc, ne_of_four_le h]

end Kinds

/-! ## The fields of an encoded frame -/

section Fields
variable (fill : Byte) (hi lo : Nibble) (p : List Byte)

@[simp] theorem kind_padded : (padded fill (joinNibbles hi lo) p).kind = hi := hiNibble_joinNibbles hi lo

@[simp] theorem loNibble_padded_d0 : loNibble (padded fill (joinNibbles hi lo) p).d0 = lo := loNibble_joinNibbles hi lo

@[simp] theorem sfLen_padded : sfLen (padded fill (joinNibbles hi lo) p) = lo.toNat :=
  congrArg BitVec.toNat (loNibble_joinNibbles hi lo)

@[simp] theorem padded_d1 (pci b0 : Byte) : (padded fill pci (b0 :: p)).d1 = b0 := rfl

@[simp] theorem padded_d2 (pci b0 b1 : Byte) : (padded fill pci (b0 :: b1 :: p)).d2 = b1 := rfl

variable (total : Len) (q : Bytes6)

@[simp] theorem kind_ffFrame : (ffFrame total q).kind = 1 := hiNibble_joinNibbles _ _

@[simp] theorem ffTotal_ffFrame : ffTotal (ffFrame total q) = total :=
  ffTotal_of_fields total _ (loNibble_joinNibbles _ _) rfl

@[simp] theorem from2_ffFrame : (ffFrame total q).from2 = q := rfl

end Fields

/-! ## The frame rows read back -/

theorem decode_encode_sf (fill : Byte) {p : List Byte} (h : (Instr.sf p).wf = true) :
    decode .frame (encode fill (.sf p)) = .sf p := by
  simp only [Instr.wf, Bool.and_eq_true, decide_eq_true_eq] at h
  obtain ⟨h1, h7⟩ := h
  have hlen : (BitVec.ofNat 4 p.length).toNat = p.length := by
    rw [BitVec.toNat_ofNat]
    omega
  rw [encode, decode_frame_eq_sf_iff_take (by omega) h7, kind_padded, sfLen_padded, hlen]
  exact ⟨⟨rfl, rfl⟩, from1_padded_take _ _ _ h7⟩

theorem decode_encode_ffShort (fill : Byte) {total : Len} (h : (Instr.ffShortInvalid total).wf = true) :
    decode .frame (encode fill (.ffShortInvalid total)) = .ffShortInvalid total := by
  have htotal : ffTotal (encode fill (.ffShortInvalid total)) = total :=
    ffTotal_of_fields total _ (loNibble_joinNibbles _ _) rfl
  have hkind : (encode fill (.ffShortInvalid total)).kind = 1 := kind_padded _ _ _ _
  rw [decode_of_kind_one hkind, decodeFf, htotal, if_pos (of_decide_eq_true h)]

theorem decode_padded_fcRsv (fill : Byte) {fs : Nibble} (h : 4 ≤ fs.toNat) :
    decode .frame (padded fill (joinNibbles 3 fs) []) =
      if fs.toNat ≤ 7 then .fcRsv4To7Invalid fs else .fcRsv8To15Invalid fs := by
  rw [decode_of_kind_three (kind_padded _ _ _ _), decodeFc_of_four_le (by rwa [loNibble_padded_d0]), loNibble_padded_d0]

theorem decode_padded_pci (fill : Byte) {hn : Nibble} (h : 4 ≤ hn.toNat) :
    decode .frame (padded fill (joinNibbles hn 0) []) =
      if hn.toNat ≤ 7 then .pci4To7Invalid hn else .pci8ToFInvalid hn := by
  rw [decode_of_four_le_kind (by rwa [kind_padded]), kind_padded]

/-- The frame rows are read back where no obd row lies on them. -/
theorem decode_frame_encode (fill : Byte) {i : Instr} (hwf : i.wf = true) (hvis : i.visibleIn .frame = true) :
    decode .frame (encode fill i) = i := by
  cases i with
  | sfLen0Invalid => rw [encode, decode_of_kind_zero (kind_padded _ _ _ _), decodeSf, sfLen_padded]; rfl
  | sfLen8To15Invalid len =>
    have h8 : 8 ≤ len.toNat := of_decide_eq_true hwf
    rw [encode, decode_of_kind_zero (kind_padded _ _ _ _), decodeSf, sfLen_padded, loNibble_padded_d0,
      if_neg (by omega), if_pos (by omega)]
  | sf p => exact decode_encode_sf fill hwf
  | ffShortInvalid total => exact decode_encode_ffShort fill hwf
  | ff total p =>
    exact decode_frame_eq_ff_iff.2
      ⟨kind_ffFrame _ _, by rw [encode, ffTotal_ffFrame]; exact of_decide_eq_true hwf, ffTotal_ffFrame _ _, rfl⟩
  | cf seq p =>
    rw [encode, decode_of_kind_two (kind_padded _ _ _ _), loNibble_padded_d0, from1_padded_bytes7]
  | fcCts bs stmin => simp [encode, encodeFC, decode_of_kind_three, decodeFc, FlowStatus.code]
  | fcWait bs stmin => simp [encode, encodeFC, decode_of_kind_three, decodeFc, FlowStatus.code]
  | fcOvf bs stmin => simp [encode, encodeFC, decode_of_kind_three, decodeFc, FlowStatus.code]
  | fcRsv3Invalid => simp [encode, decode_of_kind_three, decodeFc]
  | fcRsv4To7Invalid fs =>
    simp only [Instr.wf, Bool.and_eq_true, decide_eq_true_eq] at hwf
    obtain ⟨h4, h7⟩ := hwf
    rw [encode, decode_padded_fcRsv fill h4, if_pos h7]
  | fcRsv8To15Invalid fs =>
    have h8 : 8 ≤ fs.toNat := of_decide_eq_true hwf
    rw [encode, decode_padded_fcRsv fill (by omega), if_neg (by omega)]
  | pci4To7Invalid hn =>
    simp only [Instr.wf, Bool.and_eq_true, decide_eq_true_eq] at hwf
    obtain ⟨h4, h7⟩ := hwf
    rw [encode, decode_padded_pci fill h4, if_pos h7]
  | pci8ToFInvalid hn =>
    have h8 : 8 ≤ hn.toNat := of_decide_eq_true hwf
    rw [encode, decode_padded_pci fill (by omega), if_neg (by omega)]
  | obdReqRpm | obdReqSpeed | obdReqVin | obdReqOther | obdReqShort | obdRspRpm | obdRspSpeed | obdRspVinFf => cases hvis

/-! ## The frame row under an obd row (R74) -/

/-- The frame row that an obd row sits on; a frame row sits on itself. -/
def Instr.frameRow : Instr → Instr
  | .obdReqRpm extra => .sf (0x01 :: 0x0C :: extra)
  | .obdReqSpeed extra => .sf (0x01 :: 0x0D :: extra)
  | .obdReqVin extra => .sf (0x09 :: 0x02 :: extra)
  | .obdReqOther service pid extra => .sf (service :: pid :: extra)
  | .obdReqShort p0 => .sf [p0]
  | .obdRspRpm rpm => .sf [0x41, 0x0C, highByte rpm, lowByte rpm]
  | .obdRspSpeed speed => .sf [0x41, 0x0D, speed]
  | .obdRspVinFf v0 v1 v2 => .ff 20 ⟨0x49, 0x02, 0x01, v0, v1, v2⟩
  | i => i

/-- An obd row has the encoding of the frame row it sits on. -/
theorem encode_frameRow (fill : Byte) (i : Instr) : encode fill i.frameRow = encode fill i := by
  cases i <;> rfl

theorem frameRow_visibleIn_frame (i : Instr) : i.frameRow.visibleIn .frame = true := by
  cases i <;> rfl

/-- The service, the PID and at most five bytes after them are the payload of a Single Frame (R71). -/
theorem sf_request_wf (service pid : Byte) {extra : List Byte} (h : extra.length ≤ 5) :
    (Instr.sf (service :: pid :: extra)).wf = true := by
  simp only [Instr.wf, List.length_cons, Bool.and_eq_true, decide_eq_true_eq]
  omega

theorem frameRow_wf {i : Instr} (h : i.wf = true) : i.frameRow.wf = true := by
  cases i with
  | obdReqRpm extra => exact sf_request_wf _ _ (of_decide_eq_true h)
  | obdReqSpeed extra => exact sf_request_wf _ _ (of_decide_eq_true h)
  | obdReqVin extra => exact sf_request_wf _ _ (of_decide_eq_true h)
  | obdReqOther service pid extra =>
    obtain ⟨-, hextra⟩ := (Bool.and_eq_true _ _).mp h
    exact sf_request_wf _ _ (of_decide_eq_true hextra)
  | obdReqShort | obdRspRpm | obdRspSpeed | obdRspVinFf => rfl
  | _ => exact h

/-- Whatever the row, the frame layer reads its encoding as the frame row under it. -/
theorem decode_frame_encode_eq_frameRow (fill : Byte) {i : Instr} (h : i.wf = true) :
    decode .frame (encode fill i) = i.frameRow := by
  rw [← encode_frameRow, decode_frame_encode fill (frameRow_wf h) (frameRow_visibleIn_frame i)]

/-- A pair that the dispatcher does not answer has the row OBD_REQ_OTHER (R71). -/
theorem requestRow_of_unsupported {service pid : Byte} (extra : List Byte) (h : obdSupported service pid = false) :
    requestRow (service :: pid :: extra) = .obdReqOther service pid extra := by
  simp only [obdSupported, beq_eq_decide, ← Bool.decide_and, Bool.or_eq_false_iff, decide_eq_false_iff_not] at h
  obtain ⟨⟨hrpm, hspeed⟩, hvin⟩ := h
  rw [requestRow, if_neg hrpm, if_neg hspeed, if_neg hvin]

/-- The obd rows that a view lays over the frame row under a row it shows give that row back. -/
theorem overlay_frameRow {v : View} {i : Instr} (hwf : i.wf = true) (hvis : i.visibleIn v = true) :
    v.overlay i.frameRow = i := by
  cases i with
  | sf p =>
    cases v with
    | frame => rfl
    | request => cases hvis
    | response => exact of_decide_eq_true hvis
  | ff total p =>
    cases v with
    | frame => rfl
    | request => rfl
    | response => exact if_neg (by simpa [Instr.visibleIn, or_assoc, imp_iff_not_or] using hvis)
  | obdReqRpm | obdReqSpeed | obdReqVin | obdReqShort =>
    obtain rfl := eq_of_beq hvis
    rfl
  | obdReqOther service pid extra =>
    obtain rfl := eq_of_beq hvis
    obtain ⟨hother, -⟩ := (Bool.and_eq_true _ _).mp hwf
    exact requestRow_of_unsupported extra (Bool.not_eq_true' _ |>.mp hother)
  | obdRspRpm rpm =>
    obtain rfl := eq_of_beq hvis
    exact congrArg Instr.obdRspRpm (joinBytes_high_low rpm)
  | obdRspSpeed | obdRspVinFf =>
    obtain rfl := eq_of_beq hvis
    rfl
  | sfLen0Invalid | sfLen8To15Invalid | ffShortInvalid | cf | fcCts | fcWait | fcOvf | fcRsv3Invalid | fcRsv4To7Invalid
  | fcRsv8To15Invalid | pci4To7Invalid | pci8ToFInvalid => cases v <;> rfl

/-- Settles O3: the frame layer reads the frame row, and the view's obd rows make the row of it. -/
theorem decodeEncodeRoundTrip : Obligations.DecodeEncodeRoundTrip := by
  intro v fill i hwf hvis
  rw [decode_eq_overlay, decode_frame_encode_eq_frameRow fill hwf, overlay_frameRow hwf hvis]

end Sys2Proof
end

section
/-! O2, O8 and O9: the codec in the document's own formulas (R75 to R85). The masks and shifts of the rules are read in the two
nibbles of the first byte, in which the decoder and the encoders are written. -/

namespace Sys2Proof

/-! ## Masks and shifts in nibbles -/

theorem shiftRight_four_eq (b : Byte) : b >>> 4 = (hiNibble b).setWidth 8 := by
  revert b
  decide

theorem and_low_mask_eq (b : Byte) : b &&& 0x0F = (loNibble b).setWidth 8 := by
  revert b
  decide

theorem joinNibbles_eq_or (hi lo : Nibble) : joinNibbles hi lo = hi.setWidth 8 <<< 4 ||| lo.setWidth 8 := by
  revert hi lo
  decide

theorem setWidth_nibble_inj {m n : Nibble} : m.setWidth 8 = n.setWidth 8 ↔ m = n := by
  revert m n
  decide

/-- A flow status of 3 or more is none of the legal ones (R79). -/
theorem ne_of_three_le : ∀ {n : Nibble}, 3 ≤ n.toNat → n ≠ 0#4 ∧ n ≠ 1#4 ∧ n ≠ 2#4 := by
  decide

/-! ## `Decode`, by the type of the frame (R75) -/

section Kinds
variable {d : Frame}

theorem kind_eq_of_shiftRight {n : Nibble} (h : d.d0 >>> 4 = n.setWidth 8) : d.kind = n :=
  setWidth_nibble_inj.1 ((shiftRight_four_eq d.d0).symm.trans h)

theorem typedFrame_of_kind_zero (h : d.kind = 0) : typedFrame d = typedSf d := by
  simp [typedFrame, h]

theorem typedFrame_of_kind_one (h : d.kind = 1) : typedFrame d = typedFf d := by
  simp [typedFrame, h]

theorem typedFrame_of_kind_two (h : d.kind = 2) : typedFrame d = .cf (loNibble d.d0) d.from1 := by
  simp [typedFrame, h]

theorem typedFrame_of_kind_three (h : d.kind = 3) : typedFrame d = typedFc d := by
  simp [typedFrame, h]

theorem typedFrame_of_four_le_kind (h : 4 ≤ d.kind.toNat) : typedFrame d = .invalid := by
  simp [typedFrame, ne_of_four_le h]

theorem typedFc_of_three_le (h : 3 ≤ (loNibble d.d0).toNat) : typedFc d = .invalid := by
  simp [typedFc, ne_of_three_le h]

end Kinds

/-- Settles O2: by the high nibble, and then by the rule of the frame's type. -/
theorem decodeBySourceFormulas : Obligations.DecodeBySourceFormulas := by
  intro d
  have hlen : (d.d0 &&& 0x0F).toNat = sfLen d := by
    rw [and_low_mask_eq, BitVec.toNat_setWidth_of_le (by decide : 4 ≤ 8), sfLen]
  have hlow (n : Nibble) : d.d0 &&& 0x0F = n.setWidth 8 ↔ loNibble d.d0 = n := by
    rw [and_low_mask_eq, setWidth_nibble_inj]
  refine ⟨fun hk => ?sf, fun hk total htotal => ?ff, fun hk => ?cf, fun hk => ?fc, fun hk => ?other⟩
  case sf =>
    rw [typedFrame_of_kind_zero (kind_eq_of_shiftRight (n := 0) hk), hlen, typedSf]
    exact ⟨fun hbad => if_pos hbad, fun h1 h7 => if_neg (by omega)⟩
  case ff =>
    have hff : total = ffTotal d := by
      rw [htotal, and_low_mask_eq, BitVec.setWidth_setWidth (by decide : ¬ (8 < 4 ∧ 8 < 12)), ffTotal]
    rw [typedFrame_of_kind_one (kind_eq_of_shiftRight (n := 1) hk), hff, typedFf]
    exact ⟨fun h7 => if_pos h7, fun h7 => if_neg (by omega)⟩
  case cf =>
    rw [typedFrame_of_kind_two (kind_eq_of_shiftRight (n := 2) hk), and_low_mask_eq]
    simp [Frame.from1]
  case fc =>
    rw [typedFrame_of_kind_three (kind_eq_of_shiftRight (n := 3) hk), hlen, typedFc]
    refine ⟨fun h0 => ?_, fun h1 => ?_, fun h2 => ?_, fun h3 => ?_⟩
    · simp [(hlow 0).1 h0]
    · simp [(hlow 1).1 h1]
    · simp [(hlow 2).1 h2]
    · exact typedFc_of_three_le h3
  case other =>
    rw [shiftRight_four_eq, BitVec.toNat_setWidth_of_le (by decide : 4 ≤ 8)] at hk
    exact typedFrame_of_four_le_kind hk

/-! ## The encoders' layouts (R81 to R84) -/

/-- `[pci] ++ p ++ FILL×(7 - n)`. -/
theorem padded_toList (fill pci : Byte) {p : List Byte} (h : p.length ≤ 7) :
    (padded fill pci p).toList = pci :: p ++ List.replicate (7 - p.length) fill := by
  match p, h with
  | [], _ | [_], _ | [_, _], _ | [_, _, _], _ | [_, _, _, _], _ | [_, _, _, _, _], _ | [_, _, _, _, _, _], _
  | [_, _, _, _, _, _, _], _ => rfl
  | _ :: _ :: _ :: _ :: _ :: _ :: _ :: _ :: _, h => simp only [List.length_cons] at h; omega

theorem joinNibbles_sf_length {n : Nat} (h : n ≤ 7) : joinNibbles 0 (BitVec.ofNat 4 n) = BitVec.ofNat 8 n := by
  interval_cases n <;> rfl

/-- Settles O8: each encoder's branches, and the layout of a padded frame. -/
theorem encodersLayOutFrames : Obligations.EncodersLayOutFrames := by
  refine ⟨fun fill p => ⟨fun hbad => if_pos hbad, fun h1 h7 => ?sf⟩,
    fun total p h6 => ⟨fun h7 => if_pos h7, fun h7 => ?ff⟩,
    fun fill seq p => ⟨fun hbad => if_pos hbad, fun h1 h7 => ?cf⟩, fun fill bs stmin => ⟨rfl, rfl, rfl⟩⟩
  case sf =>
    refine ⟨_, if_neg (by omega), ?_⟩
    rw [padded_toList _ _ h7, joinNibbles_sf_length h7]
  case ff =>
    match p, h6 with
    | [p0, p1, p2, p3, p4, p5], _ =>
      refine ⟨ffFrame total ⟨p0, p1, p2, p3, p4, p5⟩, if_neg (by omega), ?_⟩
      have hhigh : (total.extractLsb' 8 4).setWidth 8 = (total >>> 8).setWidth 8 := by
        apply BitVec.eq_of_toNat_eq
        simp [BitVec.extractLsb'_toNat, Nat.shiftRight_eq_div_pow]
        omega
      rw [ffFrame, Frame.toList, joinNibbles_eq_or, hhigh, ← BitVec.setWidth_eq_extractLsb' (by omega)]
      rfl
  case cf =>
    refine ⟨_, if_neg (by omega), ?_⟩
    rw [padded_toList _ _ h7, joinNibbles_eq_or]
    rfl

/-! ## The separation delay (R85) -/

namespace Machine

/-- Settles O9: by the ranges of R85. -/
theorem stminConversion : Obligations.StminConversion := by
  intro v
  have hlt := v.isLt
  unfold stminToUs
  split_ifs with hmillis hmicros <;> omega

end Machine

end Sys2Proof
end

section
/-! O57: the Single Frame that `EncodeSF` makes of a payload, decoded and executed at RX_WAIT, leaves the payload where the host
reads it (R81, R100, R45). -/

namespace Sys2Proof

theorem frameRow_typed (i : Instr) : i.frameRow.typed = i.typed := by
  cases i <;> rfl

/-- `Decode` of R75 makes of an encoded row what the row stands for. -/
theorem typedFrame_encode (fill : Byte) {i : Instr} (h : i.wf = true) : typedFrame (encode fill i) = i.typed := by
  rw [← Machine.decode_typed .frame, decode_frame_encode_eq_frameRow fill h, frameRow_typed]

namespace Machine

/-- A memory that holds the bytes at consecutive offsets reads them back as a list (R44). -/
theorem memReadList_eq_some {m : List Host.Cell} {a : Nat} {bytes : List Byte}
    (h : ∀ i < bytes.length, memRead m (a + i) = bytes[i]?) : memReadList m a bytes.length = some bytes := by
  induction bytes generalizing a with
  | nil => rfl
  | cons b bs ih =>
    have hhead : memRead m a = some b := h 0 (Nat.succ_pos _)
    have htail : memReadList m (a + 1) bs.length = some bs := ih fun i hi => by
      rw [Nat.add_right_comm]
      exact h (i + 1) (Nat.succ_lt_succ hi)
    rw [List.length_cons, memReadList, hhead, htail]

/-- A list write is read back whole (R43, R44). -/
theorem memReadList_memWriteList (m : List Host.Cell) (a : Nat) (bytes : List Byte) :
    memReadList (memWriteList m a bytes) a bytes.length = some bytes :=
  memReadList_eq_some fun i hi => by
    rw [pbufReadsBackWrites m a (a + i) bytes, if_pos (by omega), Nat.add_sub_cancel_left]

/-- R100 for a payload that CAP has room for. -/
theorem execSf_eq_done {p : List Byte} {s : State} (hc : s.ctrl = .rxWait) (hs : s.sess = .idle)
    (hcap : p.length ≤ s.cap.toNat) :
    execSf p s = .next (raiseDone (receivedSf (BitVec.ofNat 12 p.length) (s.writePbuf 0 p))) := by
  have hfit : p.length ≤ bufCap := hcap.trans (Nat.le_of_lt_succ s.cap.isLt)
  rw [execSf, onReceive_rxWait _ _ _ hc, sfAtRxWait, onState_idle _ _ hs, receiveSf, if_neg (by omega),
    State.store_eq _ _ _ _ (by omega)]

/-- After `raise Done` the host of a tester reads the first TOTAL bytes of PBUF (R45, R123). -/
theorem hostPayload_raiseDone {s : State} (hrole : s.cfg.role = .tester) :
    (raiseDone s).hostPayload = memReadList s.pbuf 0 s.total.toNat := by
  simp [State.hostPayload, State.hostOwnsPbuf, hrole]

theorem emitted_raiseDone {s u : State} (hout : u.out = s.out) (hrole : u.cfg.role = .tester) :
    emitted s (raiseDone u) = [.complete (.ok u.total)] :=
  emitted_of_out (by rw [raiseDone_out, hout, if_pos hrole])

/-- Settles O57: the frame is read as the payload's Single Frame, and R100 copies the payload and ends Done. -/
theorem singleFrameDeliversPayload : Obligations.SingleFrameDeliversPayload := by
  intro fill p s h1 h7 hc hs hrole hcap
  have hwf : (Instr.sf p).wf = true := (Bool.and_eq_true _ _).mpr ⟨decide_eq_true h1, decide_eq_true h7⟩
  have hexec : exec (decode .response (encode fill (.sf p))) s =
      .next (raiseDone (receivedSf (BitVec.ofNat 12 p.length) (s.writePbuf 0 p))) := by
    rw [exec_eq_execTyped, decode_typed, typedFrame_encode fill hwf]
    exact execSf_eq_done hc hs hcap
  have hlen : (BitVec.ofNat 12 p.length).toNat = p.length := by
    rw [BitVec.toNat_ofNat]
    omega
  have hdone : (receivedSf (BitVec.ofNat 12 p.length) (s.writePbuf 0 p)).cfg.role = .tester := hrole
  have hout : (receivedSf (BitVec.ofNat 12 p.length) (s.writePbuf 0 p)).out = s.out := rfl
  refine ⟨encode fill (.sf p), _, if_neg (by omega), hexec, raiseDone_status _, ?_, ?_⟩
  · rw [hostPayload_raiseDone hdone, receivedSf_total, receivedSf_pbuf, State.writePbuf_pbuf, hlen,
      memReadList_memWriteList]
  · rw [emitted_raiseDone hout hdone]
    rfl

end Machine

end Sys2Proof
end

section
/-! O15 and O26 to O29: the illegal rows at the three receive points (R94, R99, R118), and what a sender at AWAIT_FC makes of
a frame (R90 to R93). The rows of `Continue()`, which R90 ends in, come first. -/

namespace Sys2Proof.Machine

/-! ## What is left of the credit -/

theorem creditLeft_iff (s : State) : s.creditExhausted = false ↔ s.creditInf = true ∨ s.credit ≠ 0 := by
  rw [← Bool.not_eq_true, State.creditExhausted_eq, not_and_or, Bool.not_eq_false]

/-! ## `Continue()`, row by row (R95) -/

section Continue
variable {s : State}

theorem continueSend_of_done (h : s.cursor = s.total) : continueSend s = raiseDone s := if_pos h

theorem continueSend_of_exhausted (h : s.cursor ≠ s.total) (hcredit : s.creditExhausted = true) :
    continueSend s = awaitRx .awaitFc .awaitFlow s := by
  rw [continueSend, if_neg h, if_pos hcredit]

theorem continueSend_of_left (h : s.cursor ≠ s.total) (hcredit : s.creditExhausted = false) :
    continueSend s = emitSleep (stminToUs s.stmin) s := by
  rw [continueSend, if_neg h, hcredit, if_neg Bool.false_ne_true]

/-- A flow control with bytes left is never exhausted at once, so the sender sleeps (R90, R95). -/
theorem continueSend_grantCredit (bs stmin : Byte) (h : s.cursor ≠ s.total) :
    continueSend (grantCredit bs stmin s) = emitSleep (stminToUs stmin) (grantCredit bs stmin s) :=
  continueSend_of_left h (creditExhausted_of_refill rfl rfl)

end Continue

/-! ## The rows -/

/-- Settles O15: each illegal row stands for `Invalid`, whose rule is chosen by the receive point. -/
theorem illegalRowsAreMalformed : Obligations.IllegalRowsAreMalformed := by
  intro len fs hn total s i hi
  have htyped : i.typed = .invalid := by
    revert i
    simp [Instr.typed]
  have hexec : exec i s = invalidFrame s := by
    rw [exec_eq_execTyped, htyped, execTyped]
  rw [hexec]
  exact ⟨onReceive_listen _ _ _, onReceive_rxWait _ _ _, onReceive_awaitFc _ _ _⟩

theorem execFcCts_awaitFc {s : State} (bs stmin : Byte) (hc : s.ctrl = .awaitFc) (hmore : s.cursor ≠ s.total) :
    execFcCts bs stmin s = .next (emitSleep (stminToUs stmin) (grantCredit bs stmin s)) := by
  rw [execFcCts, onReceive_awaitFc _ _ _ hc, clearToSend, continueSend_grantCredit bs stmin hmore]

/-- Settles O26: the granted credit is not exhausted, so `Continue()` sleeps. -/
theorem clearToSendGrantsCredit : Obligations.ClearToSendGrantsCredit := by
  intro bs stmin s hc hmore
  exact execFcCts_awaitFc bs stmin hc hmore

/-- Settles O27: at AWAIT_FC the rule is R91's. -/
theorem waitChangesNoRegister : Obligations.WaitChangesNoRegister := by
  intro bs stmin s hc
  exact onReceive_awaitFc _ _ _ hc

/-- Settles O28: at AWAIT_FC the rule is R92's. -/
theorem overflowAborts : Obligations.OverflowAborts := by
  intro bs stmin s hc
  exact onReceive_awaitFc _ _ _ hc

/-- Settles O29: of the typed frames only the SF, the FF and the CF are neither `Invalid` nor an FC. -/
theorem dataFramesAtAwaitFcFail : Obligations.DataFramesAtAwaitFcFail := by
  intro i s hc hlegal hnofc
  rw [exec_eq_execTyped]
  cases htyped : i.typed with
  | sf p => exact onReceive_awaitFc _ _ _ hc
  | ff total p => exact onReceive_awaitFc _ _ _ hc
  | cf seq p => exact onReceive_awaitFc _ _ _ hc
  | fc fs bs stmin => exact absurd htyped (hnofc fs bs stmin)
  | invalid => exact absurd htyped hlegal

end Sys2Proof.Machine
end

section
/-! O33, O34 and O37 to O39: the sender's rules outside reception (R87 to R89, R95 to R97), each as an equation of `send` or
`step`. -/

namespace Sys2Proof.Machine

/-! ## `SEND` (R87) -/

section Send
variable {s : State} {len : Len} {p : List Byte}

theorem send_of_le_seven (h7 : len.toNat ≤ 7) (hp : memReadList s.pbuf 0 len.toNat = some p) :
    send len s = transmit .txSf (encodeSF s.cfg.fill p) (beginSend len s) := by
  have hfit : 0 + len.toNat ≤ bufCap := by
    have : bufCap = 4095 := rfl
    omega
  rw [send, if_pos h7]
  exact State.load_eq _ _ _ _ p hfit hp

theorem send_of_gt_seven (h7 : 7 < len.toNat) (hp : memReadList s.pbuf 0 6 = some p) :
    send len s = transmit .txFf (encodeFF len p) (beginSend len s) := by
  rw [send, if_neg (by omega)]
  exact State.load_eq _ _ _ _ p (by decide) hp

/-- Six bytes of a message of 8 or more have a First Frame (R82). -/
theorem encodeFF_eq_frame (h7 : 7 < len.toNat) (p0 p1 p2 p3 p4 p5 : Byte) :
    encodeFF len [p0, p1, p2, p3, p4, p5] = .frame (ffFrame len ⟨p0, p1, p2, p3, p4, p5⟩) := by
  rw [encodeFF, if_neg (by omega)]

theorem encodeFF_of_six (h7 : 7 < len.toNat) (h6 : p.length = 6) : ∃ d, encodeFF len p = .frame d := by
  match p, h6 with
  | [p0, p1, p2, p3, p4, p5], _ => exact ⟨_, encodeFF_eq_frame h7 p0 p1 p2 p3 p4 p5⟩

end Send

/-- Settles O33: by the length, as R87 tests it; the loaded bytes are a payload that the encoder takes. -/
theorem sendStartsSession : Obligations.SendStartsSession := by
  intro len p s
  refine ⟨fun h0 => ?empty, fun h1 h7 hp => ?single, fun h7 hp => ?first⟩
  case empty =>
    subst h0
    exact send_of_le_seven (p := []) (Nat.zero_le _) rfl
  case single =>
    have hlen := memReadList_length hp
    refine ⟨_, if_neg (by omega), ?_⟩
    rw [send_of_le_seven h7 hp, encodeSF, if_neg (by omega)]
    rfl
  case first =>
    obtain ⟨d, hd⟩ := encodeFF_of_six h7 (memReadList_length hp)
    refine ⟨d, hd, ?_⟩
    rw [send_of_gt_seven h7 hp, hd]
    rfl

/-- Settles O34: by the rows of `Continue()`. -/
theorem continueChoosesRow : Obligations.ContinueChoosesRow := by
  intro s
  refine ⟨continueSend_of_done, fun hmore hinf hcredit => ?_, fun hmore hleft => ?_⟩
  · exact continueSend_of_exhausted hmore (s.creditExhausted_eq.2 ⟨hinf, hcredit⟩)
  · exact continueSend_of_left hmore ((creditLeft_iff s).2 hleft)

/-! ## The sender's steps -/

section Steps
variable {s : State}

theorem step_of_blockTurn (h : s.agenda = []) : step s = blockStep s := by
  simp only [step, turnStep, h]

theorem txStep_of_ok {rest : List TxAnswer} {delay : Nat} (txOk : State → Result)
    (h : s.txAnswers = ⟨delay, true⟩ :: rest) : txStep txOk s = txOk (s.withTxAnswers rest delay) := by
  simp only [txStep, h, if_true]

/-- R88. -/
theorem step_txSf {rest : List TxAnswer} {delay : Nat} (ha : s.agenda = []) (hc : s.ctrl = .txSf)
    (hans : s.txAnswers = ⟨delay, true⟩ :: rest) : step s = .next (raiseDone (sentSf (s.withTxAnswers rest delay))) := by
  rw [step_of_blockTurn ha]
  simp only [blockStep, hc, txStep_of_ok _ hans, txOkAtTxSf]

/-- R89. -/
theorem step_txFf {rest : List TxAnswer} {delay : Nat} (ha : s.agenda = []) (hc : s.ctrl = .txFf)
    (hans : s.txAnswers = ⟨delay, true⟩ :: rest) :
    step s = .next (awaitRx .awaitFc .awaitFlow (sentFf (s.withTxAnswers rest delay))) := by
  rw [step_of_blockTurn ha]
  simp only [blockStep, hc, txStep_of_ok _ hans, txOkAtTxFf]

/-- The next chunk has 1 to 7 of the bytes left (R96). -/
theorem chunk_bounds (hmore : s.cursor.toNat < s.total.toNat) :
    1 ≤ s.chunk ∧ s.chunk ≤ 7 ∧ s.cursor.toNat + s.chunk ≤ s.total.toNat := by
  unfold State.chunk
  omega

/-- `EncodeCF` inside its contract (R83). -/
theorem encodeCF_eq_frame {p : List Byte} (fill : Byte) (seq : Nibble) (h1 : 1 ≤ p.length) (h7 : p.length ≤ 7) :
    encodeCF fill seq p = .frame (padded fill (joinNibbles 0x2 seq) p) :=
  if_neg (by omega)

/-- R96 on a loaded chunk: its CF is transmitted. -/
theorem sleepDoneAtSleep_of_loaded {p : List Byte} (hmore : s.cursor.toNat < s.total.toNat)
    (hp : memReadList s.pbuf s.cursor.toNat s.chunk = some p) :
    sleepDoneAtSleep s = .next (emitTx .txCf (padded s.cfg.fill (joinNibbles 0x2 s.seq) p) s) := by
  obtain ⟨h1, h7, hle⟩ := chunk_bounds hmore
  have hfit : s.cursor.toNat + s.chunk ≤ bufCap := hle.trans (Nat.le_of_lt_succ s.total.isLt)
  have hlen : p.length = s.chunk := memReadList_length hp
  calc sleepDoneAtSleep s
    _ = s.load s.cursor.toNat s.chunk fun p => transmit .txCf (encodeCF s.cfg.fill s.seq p) s :=
      State.withChunk_eq s _ hmore.le
    _ = transmit .txCf (encodeCF s.cfg.fill s.seq p) s := State.load_eq s _ _ _ p hfit hp
    _ = .next (emitTx .txCf (padded s.cfg.fill (joinNibbles 0x2 s.seq) p) s) := by
      rw [encodeCF_eq_frame _ _ (by omega) (by omega), transmit]

/-- R96, once the delay has passed (R33). -/
theorem step_sleep {us : Nat} {rest : List Nat} {p : List Byte} (ha : s.agenda = []) (hc : s.ctrl = .sleep)
    (htimer : s.timer = us :: rest) (hdue : s.sleepDue ≤ s.now + us) (hmore : s.cursor.toNat < s.total.toNat)
    (hp : memReadList s.pbuf s.cursor.toNat s.chunk = some p) :
    step s = .next (emitTx .txCf (padded s.cfg.fill (joinNibbles 0x2 s.seq) p) (s.withTimer rest us)) := by
  rw [step_of_blockTurn ha]
  simp only [blockStep, hc, sleepStep, htimer, if_neg (Nat.not_lt.2 hdue)]
  exact sleepDoneAtSleep_of_loaded (s := s.withTimer rest us) hmore hp

/-- `if CREDIT_INF = 0 then CREDIT <- CREDIT - 1` (R97, R102), as an update. -/
def State.paid (s : State) : State :=
  { s with
    credit := if s.creditInf = true then s.credit else s.credit - 1,
    written := { s.written with credit := s.written.credit || !s.creditInf } }

theorem paid_of_unlimited (h : s.creditInf = true) : s.paid = s := by
  have hmark : (s.written.credit || !s.creditInf) = s.written.credit := by simp [h]
  rw [State.paid, if_pos h, hmark]

theorem paid_of_finite (h : s.creditInf = false) : s.paid = setCredit (s.credit - 1) s := by
  have hmark : (s.written.credit || !s.creditInf) = true := by simp [h]
  rw [State.paid, if_neg (by simp [h]), hmark, setCredit]

theorem spendCredit_of_left (k : State → Result) (h : s.creditExhausted = false) : s.spendCredit k = k s.paid := by
  cases hinf : s.creditInf with
  | true => rw [State.spendCredit_inf s k hinf, paid_of_unlimited hinf]
  | false =>
    have hcredit : s.credit ≠ 0 := by simpa [hinf] using (creditLeft_iff s).1 h
    rw [State.spendCredit_finite s k hinf hcredit, paid_of_finite hinf]

/-- R97: the chunk is counted, the credit spent, and `Continue()` follows. -/
theorem step_txCf {rest : List TxAnswer} {delay : Nat} (ha : s.agenda = []) (hc : s.ctrl = .txCf)
    (hans : s.txAnswers = ⟨delay, true⟩ :: rest) (hle : s.cursor.toNat ≤ s.total.toNat)
    (hleft : s.creditExhausted = false) :
    step s = .next (continueSend (advanceChunk s.chunk (s.withTxAnswers rest delay)).paid) := by
  rw [step_of_blockTurn ha]
  simp only [blockStep, hc, txStep_of_ok _ hans]
  exact (State.withChunk_eq (s.withTxAnswers rest delay) _ hle).trans (spendCredit_of_left _ hleft)

end Steps

/-- Settles O37: by the transmit point. -/
theorem txOkOfFirstResponseFrame : Obligations.TxOkOfFirstResponseFrame := by
  intro delay rest s ha hans
  exact ⟨fun hc => step_txSf ha hc hans, fun hc => step_txFf ha hc hans⟩

/-- Settles O38: the next chunk has 1 to 7 bytes, which `EncodeCF` takes. -/
theorem sleepDoneTransmitsChunk : Obligations.SleepDoneTransmitsChunk := by
  intro us rest p s ha hc htimer hdue hmore hp
  obtain ⟨h1, h7, -⟩ := chunk_bounds hmore
  have hlen : p.length = s.chunk := memReadList_length hp
  exact ⟨_, encodeCF_eq_frame _ _ (by omega) (by omega), step_sleep ha hc htimer hdue hmore hp⟩

/-- Settles O39: the credit that is left is spent as R97 says. -/
theorem txOkOfChunkAdvances : Obligations.TxOkOfChunkAdvances := by
  intro delay rest s ha hc hans hle hcredit
  exact step_txCf ha hc hans hle ((creditLeft_iff s).2 hcredit)

end Sys2Proof.Machine
end

section
/-! O60: a sender between its First Frame and its last Consecutive Frame. `State.Sleeping.sendsChunk` says what the two steps from
SLEEP over TX_CF do, and O60 is an induction on the granted credit with it (R95, R98). -/

namespace Sys2Proof.Machine

/-! ## Runs and the frames they transmit -/

theorem transmitted_append (os os' : List Output) : transmitted (os ++ os') = transmitted os ++ transmitted os' := by
  induction os with
  | nil => rfl
  | cons o os ih => cases o <;> simp [transmitted, ih]

theorem run_add (M : Host.Core) {s t : M.State} {m : Nat} (n : Nat) (h : M.run m s = .next t) :
    M.run (m + n) s = M.run n t := by
  induction m generalizing s with
  | zero =>
    cases h
    rw [Nat.zero_add]
  | succ m ih =>
    rw [Nat.succ_add]
    simp only [Host.Core.run] at h ⊢
    split at h
    · exact ih h
    all_goals cases h

/-- `n` steps lead from `s` to `t`, and `fs` are the frames transmitted on the way. -/
def RunSends (n : Nat) (s : State) (fs : List Frame) (t : State) : Prop :=
  Sys2Proof.core.run n s = .next t ∧ transmitted t.out = transmitted s.out ++ fs

section Runs
variable {s t u : State} {fs gs : List Frame} {m n : Nat}

theorem RunSends.refl (s : State) : RunSends 0 s [] s := ⟨rfl, (List.append_nil _).symm⟩

theorem RunSends.of_step (h : step s = .next t) (hsent : transmitted t.out = transmitted s.out ++ fs) :
    RunSends 1 s fs t := by
  have hcore : Sys2Proof.core.step s = .next t := h
  exact ⟨by simp only [Host.Core.run, hcore], hsent⟩

theorem RunSends.trans (h : RunSends m s fs t) (h' : RunSends n t gs u) : RunSends (m + n) s (fs ++ gs) u := by
  obtain ⟨hrun, hsent⟩ := h
  obtain ⟨hrun', hsent'⟩ := h'
  exact ⟨(run_add _ n hrun).trans hrun', by rw [hsent', hsent, List.append_assoc]⟩

end Runs

theorem transmitted_emitTx (at' : Ctrl) (d : Frame) (s : State) :
    transmitted (emitTx at' d s).out = transmitted s.out ++ [d] :=
  transmitted_append _ _

/-- `Continue()` transmits nothing itself (R95). -/
theorem transmitted_continueSend (s : State) : transmitted (continueSend s).out = transmitted s.out ++ [] := by
  obtain ⟨-, he⟩ | ⟨-, -, he⟩ | ⟨-, -, he⟩ := continueSend_cases s <;> rw [he]
  · rw [raiseDone_out, transmitted_append]
    split <;> rfl
  · exact transmitted_append _ _
  · exact transmitted_append _ _

/-! ## A sender and what it needs of the environment -/

/-- A sender's session on a loaded message: the turns are the block's, transmits succeed, and the timer answers no sooner than
the longest delay of R85. -/
structure State.Sending (s : State) : Prop where
  blockTurns : s.agenda = []
  transmitsSucceed : ∀ a ∈ s.txAnswers, a.ok = true
  timerSlow : ∀ us ∈ s.timer, 127000 ≤ us
  loaded : s.HasBytes s.total.toNat

/-- The session at SLEEP with a CF to send (R37 items 1 and 4). -/
structure State.Sleeping (s : State) : Prop extends s.Sending where
  atSleep : s.ctrl = .sleep
  dueSoon : s.sleepDue ≤ s.now + 127000
  bytesLeft : s.cursor.toNat < s.total.toNat
  creditLeft : s.creditExhausted = false

/-- What SLEEP and TX_CF do to a session before `Continue()`: one chunk is counted (R96, R97). -/
structure ChunkSent (s u : State) : Prop where
  cfg : u.cfg = s.cfg
  agenda : u.agenda = s.agenda
  pbuf : u.pbuf = s.pbuf
  total : u.total = s.total
  link : u.link = s.link
  txAnswers : u.txAnswers = s.txAnswers.tail
  timer : u.timer = s.timer.tail
  cursor : u.cursor.toNat = s.cursor.toNat + s.chunk
  seq : u.seq = nextSeq s.seq
  creditInf : u.creditInf = s.creditInf
  credit : s.creditInf = false → u.credit = s.credit - 1

section Session
variable {s u : State}

theorem cursor_ne_total (h : s.cursor.toNat < s.total.toNat) : s.cursor ≠ s.total := fun he => h.ne (congrArg BitVec.toNat he)

theorem State.Sending.chunkSent (h : s.Sending) (hu : ChunkSent s u) : u.Sending where
  blockTurns := hu.agenda.trans h.blockTurns
  transmitsSucceed a ha := h.transmitsSucceed a (List.mem_of_mem_tail (hu.txAnswers ▸ ha))
  timerSlow us hus := h.timerSlow us (List.mem_of_mem_tail (hu.timer ▸ hus))
  loaded := by
    rw [State.HasBytes, hu.pbuf, hu.total]
    exact h.loaded

/-- `Continue()` with bytes and credit left goes to SLEEP for at most the longest delay of R85. -/
theorem State.Sending.sleeping (h : s.Sending) (hmore : s.cursor.toNat < s.total.toNat)
    (hleft : s.creditExhausted = false) : (emitSleep (stminToUs s.stmin) s).Sleeping :=
  { h with
    atSleep := rfl
    dueSoon := by
      obtain ⟨-, -, -, -, hmax⟩ := stminConversion s.stmin
      exact Nat.add_le_add_left hmax _
    bytesLeft := hmore
    creditLeft := hleft }

/-- The next chunk is loaded (R44). -/
theorem State.Sleeping.exists_chunk (h : s.Sleeping) : ∃ p, memReadList s.pbuf s.cursor.toNat s.chunk = some p := by
  refine Option.isSome_iff_exists.1 ((memReadList_isSome _ _ _).2 fun i hi => h.loaded _ ?_)
  obtain ⟨-, -, hle⟩ := chunk_bounds h.bytesLeft
  omega

/-- From SLEEP over TX_CF: one CF with the chunk at CURSOR is transmitted, then `Continue()` (R96, R97). -/
theorem State.Sleeping.sendsChunk (h : s.Sleeping) (htimer : s.timer ≠ []) (hans : s.txAnswers ≠ []) {p : List Byte}
    (hp : memReadList s.pbuf s.cursor.toNat s.chunk = some p) :
    ∃ u, ChunkSent s u ∧ RunSends 2 s [padded s.cfg.fill (joinNibbles 0x2 s.seq) p] (continueSend u) := by
  obtain ⟨us, timer, htimer⟩ := List.exists_cons_of_ne_nil htimer
  obtain ⟨⟨delay, ok⟩, answers, hans⟩ := List.exists_cons_of_ne_nil hans
  obtain rfl : ok = true := h.transmitsSucceed ⟨delay, ok⟩ (by simp [hans])
  have hslow : 127000 ≤ us := h.timerSlow us (by simp [htimer])
  have hdue : s.sleepDue ≤ s.now + us := h.dueSoon.trans (Nat.add_le_add_left hslow _)
  have hsleep := step_sleep h.blockTurns h.atSleep htimer hdue h.bytesLeft hp
  set v := emitTx .txCf (padded s.cfg.fill (joinNibbles 0x2 s.seq) p) (s.withTimer timer us)
  have htx : step v = .next (continueSend (advanceChunk s.chunk (v.withTxAnswers answers delay)).paid) :=
    step_txCf h.blockTurns rfl hans h.bytesLeft.le h.creditLeft
  have hsent : ChunkSent s (advanceChunk s.chunk (v.withTxAnswers answers delay)).paid := {
    cfg := rfl
    agenda := rfl
    pbuf := rfl
    total := rfl
    link := rfl
    txAnswers := by rw [hans]; rfl
    timer := by rw [htimer]; rfl
    cursor := advanceChunk_cursor_toNat h.bytesLeft.le
    seq := rfl
    creditInf := rfl
    credit := fun hinf => if_neg (Bool.eq_false_iff.1 hinf) }
  exact ⟨_, hsent, (RunSends.of_step hsleep (transmitted_emitTx _ _ _)).trans
    (.of_step htx (transmitted_continueSend _))⟩

/-- Before the last CF the chunk has seven bytes (R98). -/
theorem chunk_eq_seven (h : s.cursor.toNat + 7 ≤ s.total.toNat) : s.chunk = 7 := by
  unfold State.chunk
  omega

/-- A finite credit of `k` with more than `7 * k` bytes left is `k` CFs, and then a wait for the next flow control (R98 item 3). -/
theorem State.Sleeping.sendsBlock {k : Nat} (h : s.Sleeping) (hinf : s.creditInf = false) (hk : s.credit.toNat = k)
    (hroom : s.cursor.toNat + 7 * k < s.total.toNat) (hans : k ≤ s.txAnswers.length) (htimer : k ≤ s.timer.length) :
    ∃ fs t, RunSends (2 * k) s fs t ∧ fs.length = k ∧ t.ctrl = .awaitFc ∧ t.cursor.toNat = s.cursor.toNat + 7 * k ∧
      t.link = s.link := by
  induction k generalizing s with
  | zero =>
    have hzero : s.credit = 0 := BitVec.eq_of_toNat_eq hk
    exact absurd (s.creditExhausted_eq.2 ⟨hinf, hzero⟩) (Bool.eq_false_iff.1 h.creditLeft)
  | succ k ih =>
    obtain ⟨p, hp⟩ := h.exists_chunk
    obtain ⟨u, hu, hrun⟩ := h.sendsChunk (List.length_pos_iff.1 (by omega)) (List.length_pos_iff.1 (by omega)) hp
    have hcursor : u.cursor.toNat = s.cursor.toNat + 7 := hu.cursor.trans (by rw [chunk_eq_seven (by omega)])
    have hmore : u.cursor.toNat < u.total.toNat := by rw [hcursor, hu.total]; omega
    have hne := cursor_ne_total hmore
    have huinf : u.creditInf = false := hu.creditInf.trans hinf
    have hucredit : u.credit.toNat = k := by
      rw [hu.credit hinf]
      bv_omega
    obtain rfl | hpos := Nat.eq_zero_or_pos k
    · have hspent : u.creditExhausted = true := u.creditExhausted_eq.2 ⟨huinf, BitVec.eq_of_toNat_eq hucredit⟩
      rw [continueSend_of_exhausted hne hspent] at hrun
      exact ⟨_, _, hrun, rfl, rfl, hcursor, hu.link⟩
    · have hleft : u.creditExhausted = false :=
        (creditLeft_iff u).2 (.inr fun h0 => hpos.ne (hucredit ▸ congrArg BitVec.toNat h0).symm)
      rw [continueSend_of_left hne hleft] at hrun
      have huans : k ≤ u.txAnswers.length := by rw [hu.txAnswers, List.length_tail]; omega
      have hutimer : k ≤ u.timer.length := by rw [hu.timer, List.length_tail]; omega
      have huroom : u.cursor.toNat + 7 * k < u.total.toNat := by rw [hcursor, hu.total]; omega
      obtain ⟨fs, t, hrun', hlen, hctrl, htcursor, hlink⟩ :=
        ih ((h.toSending.chunkSent hu).sleeping hmore hleft) huinf hucredit huroom huans hutimer
      have hsteps : 2 * (k + 1) = 2 + 2 * k := by omega
      have htotal : t.cursor.toNat = s.cursor.toNat + 7 * (k + 1) := by
        rw [htcursor, emitSleep_cursor, hcursor]
        omega
      exact ⟨_, t, hsteps ▸ hrun.trans hrun', by simp [hlen], hctrl, htotal, hlink.trans hu.link⟩

end Session

/-- Settles O60: the invariant makes the state a sleeping sender, and the credit is sent CF by CF. -/
theorem blockSizeGrantsExactly : Obligations.BlockSizeGrantsExactly := by
  intro k s h ha hc hinf hk hroom hans hoks htimer hslow hdue
  have hmid : s.midSend = true := by simp [State.midSend, hc]
  have hsleeping : s.Sleeping := {
    blockTurns := ha
    transmitsSucceed := hoks
    timerSlow := hslow
    loaded := h.sendLoaded (by simp [State.inSend, hmid])
    atSleep := hc
    dueSoon := hdue
    bytesLeft := by omega
    creditLeft := h.creditLeft (.inr (.inl hc)) }
  obtain ⟨fs, t, ⟨hrun, hsent⟩, hlen, hctrl, hcursor, hlink⟩ := hsleeping.sendsBlock hinf hk hroom hans htimer
  exact ⟨t, hrun, hctrl, hcursor, by rw [hsent, List.length_append, hlen], hlink⟩

end Sys2Proof.Machine
end

section
/-! O59: the sender of a loaded message transmits its First Frame and its Consecutive Frames and ends Done (R98 items 1 and 2), by
induction on the bytes left, with a flow control wherever `Continue()` awaits one (R95). -/

namespace Sys2Proof.Machine

/-! ## Parts of a loaded message -/

theorem memRead_of_memReadList {m : List Host.Cell} {a n : Nat} {bytes : List Byte} (h : memReadList m a n = some bytes) :
    ∀ i < n, memRead m (a + i) = bytes[i]? := by
  induction n generalizing a bytes with
  | zero => exact fun i hi => absurd hi (Nat.not_lt_zero i)
  | succ n ih =>
    simp only [memReadList] at h
    split at h
    · next b bs hb hbs =>
      cases h
      rintro (_ | i) hi
      · exact hb
      · have hoffset : a + (i + 1) = a + 1 + i := by omega
        rw [hoffset]
        exact ih hbs i (Nat.lt_of_succ_lt_succ hi)
    · cases h

/-- A part of a list that PBUF holds. -/
theorem memReadList_part {m : List Host.Cell} {n c l : Nat} {bytes : List Byte} (h : memReadList m 0 n = some bytes)
    (hl : c + l ≤ n) : memReadList m c l = some ((bytes.drop c).take l) := by
  have hlen : ((bytes.drop c).take l).length = l := by
    rw [List.length_take, List.length_drop, memReadList_length h]
    omega
  have hpart : memReadList m c ((bytes.drop c).take l).length = some ((bytes.drop c).take l) :=
    memReadList_eq_some fun i hi => by
      rw [hlen] at hi
      rw [List.getElem?_take, if_pos hi, List.getElem?_drop, ← memRead_of_memReadList h _ (by omega), Nat.zero_add]
  rwa [hlen] at hpart

theorem consecutiveFrames_nil (fill : Byte) (seq : Nibble) (n : Nat) : consecutiveFrames fill seq n [] = [] := by
  cases n <;> rfl

theorem consecutiveFrames_succ (fill : Byte) (seq : Nibble) (n : Nat) {ps : List Byte} (h : ps ≠ []) :
    consecutiveFrames fill seq (n + 1) ps =
      padded fill (joinNibbles 0x2 seq) (ps.take 7) :: consecutiveFrames fill (nextSeq seq) n (ps.drop 7) := by
  obtain ⟨p, ps, rfl⟩ := List.exists_cons_of_ne_nil h
  rfl

/-! ## A session on a message -/

/-- A simulator's session that sends `msg`, on a link that answers every wait with a CTS of some block size and STmin. -/
structure State.Segments (msg : List Byte) (s : State) : Prop extends s.Sending where
  role : s.cfg.role = .simulator
  message : memReadList s.pbuf 0 msg.length = some msg
  whole : s.total.toNat = msg.length
  grants : ∀ a ∈ s.link, ∃ bs stmin, a.event = .frame s.cfg.rxId (encodeFC s.cfg.fill .cts bs stmin)

/-- The CFs of the bytes from CURSOR on; `n` is at least the number of these bytes. -/
def State.framesLeft (msg : List Byte) (n : Nat) (s : State) : List Frame :=
  consecutiveFrames s.cfg.fill s.seq n (msg.drop s.cursor.toNat)

/-- From `s` to `t` the sender has at most awaited one flow control. -/
structure Resumed (s t : State) : Prop where
  cfg : t.cfg = s.cfg
  cursor : t.cursor = s.cursor
  seq : t.seq = s.seq
  txAnswers : t.txAnswers = s.txAnswers
  timer : t.timer = s.timer
  link : s.link.length ≤ t.link.length + 1

section Message
variable {s t u : State} {msg : List Byte} {n : Nat}

theorem Resumed.framesLeft (h : Resumed s t) : t.framesLeft msg n = s.framesLeft msg n := by
  rw [State.framesLeft, h.cfg, h.seq, h.cursor, State.framesLeft]

/-- A byte left is a frame left. -/
theorem framesLeft_pos (hmore : s.cursor.toNat < msg.length) (hn : 0 < n) : 0 < (s.framesLeft msg n).length := by
  obtain ⟨n, rfl⟩ := Nat.exists_eq_succ_of_ne_zero hn.ne'
  rw [State.framesLeft, consecutiveFrames_succ _ _ _ (mt List.drop_eq_nil_iff.1 (Nat.not_le.2 hmore))]
  exact Nat.succ_pos _

theorem State.Segments.chunkSent (h : s.Segments msg) (hu : ChunkSent s u) : u.Segments msg :=
  { h.toSending.chunkSent hu with
    role := by rw [hu.cfg]; exact h.role
    message := by rw [hu.pbuf]; exact h.message
    whole := by rw [hu.total]; exact h.whole
    grants := by rw [hu.link, hu.cfg]; exact h.grants }

theorem State.Segments.read_chunk (h : s.Segments msg) (hmore : s.cursor.toNat < s.total.toNat) :
    memReadList s.pbuf s.cursor.toNat s.chunk = some ((msg.drop s.cursor.toNat).take 7) := by
  obtain ⟨-, -, hle⟩ := chunk_bounds hmore
  rw [memReadList_part h.message (hle.trans_eq h.whole), State.chunk, h.whole, ← List.length_drop, ← List.take_eq_take_min]

/-- The chunk that is sent is the first of the frames left. -/
theorem State.Segments.framesLeft_succ (h : s.Segments msg) (hmore : s.cursor.toNat < s.total.toNat) (hu : ChunkSent s u) :
    s.framesLeft msg (n + 1) =
      padded s.cfg.fill (joinNibbles 0x2 s.seq) ((msg.drop s.cursor.toNat).take 7) :: u.framesLeft msg n := by
  have hwhole := h.whole
  have hne : msg.drop s.cursor.toNat ≠ [] := mt List.drop_eq_nil_iff.1 (by omega)
  have hrest : (msg.drop s.cursor.toNat).drop 7 = msg.drop u.cursor.toNat := by
    rw [List.drop_drop, hu.cursor, State.chunk]
    obtain h7 | h7 := Nat.le_total 7 (s.total.toNat - s.cursor.toNat)
    · rw [Nat.min_eq_left h7]
    · rw [Nat.min_eq_right h7, List.drop_eq_nil_of_le (by omega), List.drop_eq_nil_of_le (by omega)]
  rw [State.framesLeft, consecutiveFrames_succ _ _ _ hne, hrest, State.framesLeft, hu.cfg, hu.seq]

/-- R90 as a step: a CTS with the block's identifier and fill byte, with bytes left. -/
theorem step_awaitFc_cts {delay : Nat} {rest : List LinkAnswer} {bs stmin : Byte} (ha : s.agenda = [])
    (hc : s.ctrl = .awaitFc) (hmore : s.cursor ≠ s.total)
    (hlink : s.link = ⟨delay, .frame s.cfg.rxId (encodeFC s.cfg.fill .cts bs stmin)⟩ :: rest) :
    step s = .next (emitSleep (stminToUs stmin) (grantCredit bs stmin (s.withLink rest delay))) := by
  rw [stepRunsDecodedFrame delay _ rest .frame s ha hlink (by rw [hc]; rfl), exec_eq_execTyped, decode_typed]
  have htyped : typedFrame (encodeFC s.cfg.fill .cts bs stmin) = .fc .cts bs stmin :=
    typedFrame_encode s.cfg.fill (i := .fcCts bs stmin) rfl
  rw [htyped]
  exact execFcCts_awaitFc (s := s.withLink rest delay) bs stmin hc hmore

/-- A wait for a flow control ends at SLEEP, and no frame is transmitted (R90, R95). -/
theorem State.Segments.awaits (h : s.Segments msg) (hmore : s.cursor.toNat < s.total.toNat) (hlink : s.link ≠ []) :
    ∃ t, RunSends 1 (awaitRx .awaitFc .awaitFlow s) [] t ∧ t.Segments msg ∧ t.Sleeping ∧ Resumed s t := by
  obtain ⟨⟨delay, event⟩, rest, hlink⟩ := List.exists_cons_of_ne_nil hlink
  obtain ⟨bs, stmin, rfl⟩ := h.grants ⟨delay, event⟩ (by simp [hlink])
  have hstep := step_awaitFc_cts (s := awaitRx .awaitFc .awaitFlow s) h.blockTurns rfl (cursor_ne_total hmore) hlink
  have hsending : (grantCredit bs stmin ((awaitRx .awaitFc .awaitFlow s).withLink rest delay)).Sending :=
    { h.toSending with }
  have hsleeping := hsending.sleeping hmore (creditExhausted_of_refill rfl rfl)
  refine ⟨_, .of_step hstep (transmitted_append _ _), ?_, hsleeping, ?_⟩
  · exact { h with grants := fun a ha => h.grants a (hlink ▸ List.mem_cons_of_mem _ ha) }
  · exact ⟨rfl, rfl, rfl, rfl, rfl, (congrArg List.length hlink).le⟩

/-- `Continue()` with bytes left comes to SLEEP, at once or over a wait for a flow control (R95). -/
theorem State.Segments.continues (h : s.Segments msg) (hmore : s.cursor.toNat < s.total.toNat) (hlink : s.link ≠ []) :
    ∃ k t, RunSends k (continueSend s) [] t ∧ t.Segments msg ∧ t.Sleeping ∧ Resumed s t := by
  have hne := cursor_ne_total hmore
  cases hcredit : s.creditExhausted with
  | true =>
    rw [continueSend_of_exhausted hne hcredit]
    exact ⟨1, h.awaits hmore hlink⟩
  | false =>
    rw [continueSend_of_left hne hcredit]
    exact ⟨0, _, .refl _, { h with }, h.toSending.sleeping hmore hcredit, ⟨rfl, rfl, rfl, rfl, rfl, Nat.le_succ _⟩⟩

/-- A simulator that has ended its session Done with the whole message sent. -/
structure State.Finished (s : State) : Prop where
  listens : s.ctrl = .listen
  done : s.status = .done
  sentAll : s.cursor = s.total

/-- With every byte sent no frame is left, and `Continue()` ends the session Done (R95, R123). -/
theorem State.Segments.finished (h : s.Segments msg) (hlast : s.cursor.toNat = msg.length) :
    s.framesLeft msg n = [] ∧ (continueSend s).Finished := by
  have hdone : s.cursor = s.total := BitVec.eq_of_toNat_eq (hlast.trans h.whole.symm)
  rw [State.framesLeft, List.drop_eq_nil_of_le hlast.ge, continueSend_of_done hdone]
  exact ⟨consecutiveFrames_nil _ _ n, by simp [h.role], raiseDone_status s, by simp [hdone]⟩

/-- The environment has an answer for each of `k` CFs and for each wait between them. -/
structure State.Answered (k : Nat) (s : State) : Prop where
  link : k ≤ s.link.length + 1
  txAnswers : k ≤ s.txAnswers.length
  timer : k ≤ s.timer.length

theorem ChunkSent.answered {k : Nat} (hu : ChunkSent s u) (h : s.Answered (k + 1)) :
    k ≤ u.link.length ∧ k ≤ u.txAnswers.length ∧ k ≤ u.timer.length := by
  obtain ⟨hlink, hans, htimer⟩ := h
  rw [hu.link, hu.txAnswers, hu.timer, List.length_tail, List.length_tail]
  omega

theorem Resumed.answered {k : Nat} (h : Resumed s t) (hlink : k ≤ s.link.length) (hans : k ≤ s.txAnswers.length)
    (htimer : k ≤ s.timer.length) : t.Answered k :=
  ⟨hlink.trans h.link, h.txAnswers ▸ hans, h.timer ▸ htimer⟩

/-- From SLEEP the frames left are transmitted, given an answer for each of them. -/
theorem State.Segments.finishes (h : s.Segments msg) (hs : s.Sleeping) (hn : msg.length - s.cursor.toNat ≤ n)
    (hanswered : s.Answered (s.framesLeft msg n).length) : ∃ k t, RunSends k s (s.framesLeft msg n) t ∧ t.Finished := by
  have hmore := hs.bytesLeft
  rw [h.whole] at hmore
  induction n generalizing s with
  | zero => omega
  | succ n ih =>
    have hpos := framesLeft_pos (n := n + 1) hmore (Nat.succ_pos n)
    have hans := List.length_pos_iff.1 (hpos.trans_le hanswered.txAnswers)
    have htimer := List.length_pos_iff.1 (hpos.trans_le hanswered.timer)
    obtain ⟨u, hu, hrun⟩ := hs.sendsChunk htimer hans (h.read_chunk hs.bytesLeft)
    have hseg := h.chunkSent hu
    have hsplit := h.framesLeft_succ (n := n) hs.bytesLeft hu
    rw [hsplit] at hanswered ⊢
    obtain ⟨hulink, huans, hutimer⟩ := hu.answered hanswered
    obtain ⟨hchunk, -, hle⟩ := chunk_bounds hs.bytesLeft
    rw [h.whole, ← hu.cursor] at hle
    have hnext : msg.length - u.cursor.toNat ≤ n := by rw [hu.cursor]; omega
    obtain hlast | hlt := hle.eq_or_lt
    · obtain ⟨hnone, hfinished⟩ := hseg.finished (n := n) hlast
      rw [hnone]
      exact ⟨2, _, hrun, hfinished⟩
    · have hupos := framesLeft_pos (s := u) (n := n) hlt (by omega)
      obtain ⟨k, v, hwait, hvseg, hvs, hv⟩ :=
        hseg.continues (hlt.trans_eq hseg.whole.symm) (List.length_pos_iff.1 (hupos.trans_le hulink))
      have hvanswered := hv.answered hulink huans hutimer
      rw [← hv.framesLeft] at hvanswered ⊢
      rw [← hv.cursor] at hlt hnext
      obtain ⟨l, t, hrest, hfinished⟩ := ih hvseg hvs hnext hvanswered hlt
      exact ⟨_, t, hrun.trans (hwait.trans hrest), hfinished⟩

/-- The same from a wait for a flow control. -/
theorem State.Segments.finishes_of_wait (h : s.Segments msg) (hmore : s.cursor.toNat < msg.length)
    (hn : msg.length - s.cursor.toNat ≤ n) (hlink : (s.framesLeft msg n).length ≤ s.link.length)
    (hans : (s.framesLeft msg n).length ≤ s.txAnswers.length) (htimer : (s.framesLeft msg n).length ≤ s.timer.length) :
    ∃ k t, RunSends k (awaitRx .awaitFc .awaitFlow s) (s.framesLeft msg n) t ∧ t.Finished := by
  have hpos := framesLeft_pos (s := s) (n := n) hmore (by omega)
  obtain ⟨v, hwait, hvseg, hvs, hv⟩ :=
    h.awaits (hmore.trans_eq h.whole.symm) (List.length_pos_iff.1 (hpos.trans_le hlink))
  have hanswered := hv.answered hlink hans htimer
  rw [← hv.framesLeft] at hanswered ⊢
  obtain ⟨k, t, hrest, hfinished⟩ := hvseg.finishes hvs (by rwa [hv.cursor]) hanswered
  exact ⟨_, t, hwait.trans hrest, hfinished⟩

/-- The same from TX_FF: the First Frame is out, and its CFs follow (R89). -/
theorem State.Segments.finishes_of_first (h : s.Segments msg) (hc : s.ctrl = .txFf) (h6 : 6 < msg.length)
    (hn : msg.length - 6 ≤ n) (hlink : ((sentFf s).framesLeft msg n).length ≤ s.link.length)
    (hans : ((sentFf s).framesLeft msg n).length < s.txAnswers.length)
    (htimer : ((sentFf s).framesLeft msg n).length ≤ s.timer.length) :
    ∃ k t, RunSends k s ((sentFf s).framesLeft msg n) t ∧ t.Finished := by
  obtain ⟨⟨delay, ok⟩, rest, hcons⟩ := List.exists_cons_of_length_pos (Nat.zero_lt_of_lt hans)
  obtain rfl : ok = true := h.transmitsSucceed ⟨delay, ok⟩ (by simp [hcons])
  have hseg : (sentFf (s.withTxAnswers rest delay)).Segments msg :=
    { h with transmitsSucceed := fun a ha => h.transmitsSucceed a (hcons ▸ List.mem_cons_of_mem _ ha) }
  have hfirst : RunSends 1 s [] (awaitRx .awaitFc .awaitFlow (sentFf (s.withTxAnswers rest delay))) :=
    .of_step (step_txFf h.blockTurns hc hcons) (transmitted_append _ _)
  rw [hcons, List.length_cons] at hans
  obtain ⟨k, t, hrest, hfinished⟩ := hseg.finishes_of_wait h6 hn hlink (Nat.le_of_lt_succ hans) htimer
  exact ⟨_, t, hfirst.trans hrest, hfinished⟩

end Message

theorem hasBytes_of_memReadList {s : State} {n : Nat} {bytes : List Byte} (h : memReadList s.pbuf 0 n = some bytes) :
    s.HasBytes n := fun a ha => by
  rw [← Nat.zero_add a]
  exact (memReadList_isSome _ _ _).1 (Option.isSome_iff_exists.2 ⟨_, h⟩) a ha

/-- R87 on a loaded message of 8 bytes or more: its First Frame is on its way. -/
theorem send_message {s : State} {p0 p1 p2 p3 p4 p5 : Byte} {rest : List Byte} {len : Len} (h7 : 7 < len.toNat)
    (hloaded : memReadList s.pbuf 0 len.toNat = some (p0 :: p1 :: p2 :: p3 :: p4 :: p5 :: rest)) :
    send len s = .next (emitTx .txFf (ffFrame len ⟨p0, p1, p2, p3, p4, p5⟩) (beginSend len s)) := by
  have hsix : memReadList s.pbuf 0 6 = some [p0, p1, p2, p3, p4, p5] := memReadList_part (c := 0) hloaded (by omega)
  rw [send_of_gt_seven h7 hsix, encodeFF_eq_frame h7]
  rfl

/-- Settles O59: R87 puts the First Frame on its way in a session on the message, and the session finishes. -/
theorem senderSegmentsMessage : Obligations.SenderSegmentsMessage := by
  intro msg grants oks sleeps s s0 ha hrole hlink hans htimer h8 h4095 hloaded hsend hgrants hoks hslow hlinkLen hansLen
    htimerLen
  subst hlink hans htimer
  have hlen : (BitVec.ofNat 12 msg.length).toNat = msg.length := by
    rw [BitVec.toNat_ofNat]
    omega
  match msg, h8 with
  | p0 :: p1 :: p2 :: p3 :: p4 :: p5 :: rest, h8 =>
    rw [send_message (by omega) (hlen.symm ▸ hloaded)] at hsend
    cases hsend
    rw [messageFrames, List.length_cons] at hlinkLen hansLen htimerLen
    set len := BitVec.ofNat 12 (p0 :: p1 :: p2 :: p3 :: p4 :: p5 :: rest).length
    set s1 := emitTx .txFf (ffFrame len ⟨p0, p1, p2, p3, p4, p5⟩) (beginSend len s)
    have hseg : s1.Segments (p0 :: p1 :: p2 :: p3 :: p4 :: p5 :: rest) := {
      blockTurns := ha
      transmitsSucceed := hoks
      timerSlow := hslow
      loaded := hasBytes_of_memReadList (s := s1) (hlen.symm ▸ hloaded)
      role := hrole
      message := hloaded
      whole := hlen
      grants := hgrants }
    obtain ⟨k, t, ⟨hrun, hsent⟩, hfinished⟩ := hseg.finishes_of_first (n := rest.length) rfl (Nat.lt_of_succ_lt h8)
      (Nat.le_refl _) (Nat.le_of_succ_le hlinkLen) hansLen (Nat.le_of_succ_le htimerLen)
    refine ⟨k, t, hrun, hfinished.listens, hfinished.done, hfinished.sentAll, ?_⟩
    rw [hsent, transmitted_emitTx, List.append_assoc]
    rfl

end Sys2Proof.Machine
end

section
/-! O51: where PBUF is written. Only a frame's `MemWrite` changes it, at LISTEN or RX_WAIT, and a receiver's copy ends inside CAP
and the TOTAL that the step leaves (R41, R43, R98 item 5, R106 item 4). -/

namespace Sys2Proof.Machine

/-- From `s` to `t` PBUF keeps every byte at or above the TOTAL that `t` has or the CAP of `s`. -/
def KeepsBeyond (s t : State) : Prop :=
  ∀ x, t.total.toNat ≤ x ∨ s.cap.toNat ≤ x → memRead t.pbuf x = memRead s.pbuf x

section Bounds
variable {s t : State}

theorem KeepsBeyond.of_pbuf (h : t.pbuf = s.pbuf) : KeepsBeyond s t := fun _ _ => by rw [h]

/-- A copy that ends inside TOTAL and CAP. -/
theorem KeepsBeyond.of_copy {a : Nat} {bytes : List Byte} (hpbuf : t.pbuf = memWriteList s.pbuf a bytes)
    (htotal : a + bytes.length ≤ t.total.toNat) (hcap : a + bytes.length ≤ s.cap.toNat) : KeepsBeyond s t := by
  intro x hx
  rw [hpbuf, pbufReadsBackWrites s.pbuf a x bytes, if_neg (by omega)]

/-- A frame received elsewhere than at LISTEN and RX_WAIT, so at AWAIT_FC, writes no byte (R90 to R94). -/
theorem FrameEffect.pbuf_of_elsewhere {f : TypedFrame} (he : FrameEffect s f t) (hl : s.ctrl ≠ .listen)
    (hr : s.ctrl ≠ .rxWait) : t.pbuf = s.pbuf := by
  cases he with
  | dropped _ k hc => rfl
  | unsupported service pid extra hc => rfl
  | served service pid extra r d hc => exact absurd hc hl
  | failed _ k hc => exact raiseFail_pbuf k s
  | single p hc => exact absurd hc hr
  | first total p hc => exact absurd hc hr
  | consecutive p u hc => exact absurd hc hr
  | granted bs stmin hc => exact continueSend_pbuf _
  | waited bs stmin hc => rfl

/-- The three copies of a receiver end inside TOTAL and CAP (R100 to R102). -/
theorem FrameEffect.keepsBeyond {f : TypedFrame} (he : FrameEffect s f t) (hc : s.ctrl = .rxWait)
    (hff : ∀ total p, f = .ff total p → 8 ≤ total.toNat) : KeepsBeyond s t := by
  have hl : s.ctrl ≠ .listen := by rw [hc]; exact nofun
  cases he with
  | dropped _ k hc' => exact absurd hc' hl
  | unsupported service pid extra hc' => exact absurd hc' hl
  | served service pid extra r d hc' => exact absurd hc' hl
  | failed _ k => exact .of_pbuf (raiseFail_pbuf k s)
  | single p hc' hs hcap hfit =>
    have hlen : (BitVec.ofNat 12 p.length).toNat = p.length := by
      rw [BitVec.toNat_ofNat, Nat.mod_eq_of_lt (Nat.lt_succ_of_le hfit)]
    exact .of_copy (a := 0) (raiseDone_pbuf _) (by rw [raiseDone_total, receivedSf_total, hlen, Nat.zero_add]) (by omega)
  | first total p hc' hs hcap =>
    have hlong := hff total p rfl
    have hsix : 0 + p.toList.length = 6 := rfl
    exact .of_copy (a := 0) rfl (by rw [hsix]; exact Nat.le_trans (by decide) hlong) (by omega)
  | consecutive p u hc' hs hle hcap hfit hu =>
    have htaken : (p.toList.take s.chunk).length = s.chunk := by simp [Bytes7.toList, State.chunk]
    obtain ⟨-, -, -, hutotal⟩ := hu.regs
    have htotal : (afterChunk u).total = s.total := (congrArg Prod.fst (afterChunk_keeps u).progress).trans hutotal
    refine .of_copy ((afterChunk_pbuf u).trans hu.pbuf) ?_ (by rw [htaken]; exact hcap)
    rw [htaken, htotal, State.chunk]
    omega
  | granted bs stmin hc' => rw [hc] at hc'; cases hc'
  | waited bs stmin hc' => rw [hc] at hc'; cases hc'

/-- Where PBUF stays the same and where its upper part does. -/
structure PbufBounds (s t : State) : Prop where
  elsewhere : s.ctrl ≠ .listen → s.ctrl ≠ .rxWait → t.pbuf = s.pbuf
  rxWait : s.ctrl = .rxWait → KeepsBeyond s t

theorem PbufBounds.of_pbuf (h : t.pbuf = s.pbuf) : PbufBounds s t := ⟨fun _ _ => h, fun _ => .of_pbuf h⟩

theorem BlockMove.pbufBounds (hm : BlockMove s t) : PbufBounds s t := by
  cases hm with
  | waits => exact .of_pbuf rfl
  | accepted r rest d hc hhost => exact .of_pbuf rfl
  | txFailed rest delay hc hans => exact .of_pbuf (raiseFail_pbuf _ _)
  | awaitsResponse rest delay hc hans => exact .of_pbuf rfl
  | singleSent rest delay hc hans => exact .of_pbuf (raiseDone_pbuf _)
  | firstSent rest delay hc hans => exact .of_pbuf rfl
  | chunkSent rest delay u hc hans hle hu => exact .of_pbuf ((continueSend_pbuf u).trans hu.pbuf)
  | slept rest us d hc htimer hdue => exact .of_pbuf rfl
  | received d rest delay _ hv hlink ht =>
    exact ⟨ht.pbuf_of_elsewhere, fun hc => ht.keepsBeyond hc fun total p => typedFrame_ff_total⟩
  | foreign id d rest delay hv hlink hid => exact .of_pbuf rfl
  | linkErrorDropped rest delay hc hlink => exact .of_pbuf rfl
  | linkFailed k e rest delay hc hlink => exact .of_pbuf (raiseFail_pbuf _ _)

theorem step_pbufBounds (h : step s = .next t) (hreset : ∀ linkOk rest, s.agenda ≠ .reset linkOk :: rest) :
    PbufBounds s t := by
  obtain ⟨-, hb⟩ | ⟨rest, -, hb⟩ | ⟨rpm, speed, rest, -, rfl⟩ | ⟨linkOk, rest, ha, -⟩ := step_cases h
  · exact (blockStep_move hb).pbufBounds
  · exact { (blockStep_move hb).pbufBounds with }
  · exact .of_pbuf rfl
  · exact absurd ha (hreset linkOk rest)

/-- A sender's session is at neither LISTEN nor RX_WAIT. -/
theorem ctrl_ne_of_inSend (h : s.inSend = true) : s.ctrl ≠ .listen ∧ s.ctrl ≠ .rxWait := by
  constructor <;> intro hc <;> simp [State.inSend, State.midSend, hc] at h

end Bounds

/-- Settles O51: by whose turn the step is, and for the block's turn by its moves; the rules' own checks keep the copies inside
TOTAL and CAP, in states outside the invariant too. -/
theorem pbufWritesStayInBounds : Obligations.PbufWritesStayInBounds := by
  intro s t _ hstep hreset
  obtain ⟨helsewhere, hrxWait⟩ := step_pbufBounds hstep hreset
  refine ⟨fun hsend => ?_, hrxWait, helsewhere⟩
  obtain ⟨hl, hr⟩ := ctrl_ne_of_inSend hsend
  exact helsewhere hl hr

end Sys2Proof.Machine
end

section
/-! O21, O23 to O25 and O36: the receiver's rules (R100 to R105, R115), each as an equation of a row's meaning or of
`step`. -/

namespace Sys2Proof.Machine

/-! ## A frame at RX_WAIT, by STATE (R116) -/

section AtRxWait
variable {s : State} (hc : s.ctrl = .rxWait)
include hc

theorem execSf_idle (hs : s.sess = .idle) (p : List Byte) : execSf p s = receiveSf p s :=
  (onReceive_rxWait _ _ _ hc).trans (onState_idle _ _ hs)

theorem execFf_idle (hs : s.sess = .idle) (total : Len) (p : Bytes6) : execFf total p s = receiveFf total p s :=
  (onReceive_rxWait _ _ _ hc).trans (onState_idle _ _ hs)

theorem execCf_awaitCons (hs : s.sess = .awaitCons) (seq : Nibble) (p : Bytes7) : execCf seq p s = receiveCf seq p s :=
  (onReceive_rxWait _ _ _ hc).trans (onState_awaitCons _ _ hs)

/-- Between two messages a CF is unexpected (R105). -/
theorem execCf_idle (hs : s.sess = .idle) (seq : Nibble) (p : Bytes7) :
    execCf seq p s = .next (raiseFail .unexpectedFrame s) :=
  (onReceive_rxWait _ _ _ hc).trans (onState_idle _ _ hs)

/-- Within a message an SF or an FF is unexpected (R105). -/
theorem execSf_awaitCons (hs : s.sess = .awaitCons) (p : List Byte) :
    execSf p s = .next (raiseFail .unexpectedFrame s) :=
  (onReceive_rxWait _ _ _ hc).trans (onState_awaitCons _ _ hs)

theorem execFf_awaitCons (hs : s.sess = .awaitCons) (total : Len) (p : Bytes6) :
    execFf total p s = .next (raiseFail .unexpectedFrame s) :=
  (onReceive_rxWait _ _ _ hc).trans (onState_awaitCons _ _ hs)

/-- An FC of any flow status is unexpected (R105). -/
theorem execTyped_fc_rxWait (hs : s.sess = .idle ∨ s.sess = .awaitCons) (fs : FlowStatus) (bs stmin : Byte) :
    execTyped (.fc fs bs stmin) s = .next (raiseFail .unexpectedFrame s) := by
  have hpoint : execTyped (.fc fs bs stmin) s = fcAtRxWait s := by
    cases fs <;> exact onReceive_rxWait _ _ _ hc
  rw [hpoint]
  exact hs.elim (onState_idle _ _) (onState_awaitCons _ _)

/-- R101 for a total that CAP has room for. -/
theorem execFf_eq_first (hs : s.sess = .idle) {total : Len} (hcap : total.toNat ≤ s.cap.toNat) (p : Bytes6) :
    execFf total p s = .next (emitTx .txFc (encodeFC s.cfg.fill .cts s.cfg.rxBs s.cfg.rxStmin)
      (beginReceive total (s.writePbuf 0 p.toList))) := by
  rw [execFf_idle hc hs, receiveFf, if_neg (Nat.not_lt.2 hcap)]
  exact State.store_eq s 0 p.toList _ (by decide : 0 + 6 ≤ bufCap)

end AtRxWait

/-! ## The next chunk (R102) -/

/-- R102 up to the choice of its end: the chunk is copied to CURSOR and counted, and the credit spent. -/
def State.takeChunk (p : Bytes7) (s : State) : State :=
  (advanceChunk s.chunk (s.writePbuf s.cursor.toNat (p.toList.take s.chunk))).paid

section Chunk
variable {s : State}

/-- A CF has bytes for the whole chunk. -/
theorem length_take_chunk (p : Bytes7) (s : State) : (p.toList.take s.chunk).length = s.chunk := by
  simp [Bytes7.toList, State.chunk]

theorem receiveCf_of_guard (p : Bytes7) (hle : s.cursor.toNat ≤ s.total.toNat)
    (hover : s.cap.toNat < s.cursor.toNat + s.chunk) : receiveCf s.seq p s = .fault .capacityGuard := by
  rw [receiveCf, if_pos rfl]
  exact (State.withChunk_eq s _ hle).trans (if_pos hover)

theorem receiveCf_of_room (p : Bytes7) (hle : s.cursor.toNat ≤ s.total.toNat) (hleft : s.creditExhausted = false)
    (hcap : s.cursor.toNat + s.chunk ≤ s.cap.toNat) : receiveCf s.seq p s = .next (afterChunk (s.takeChunk p)) := by
  have hfit : s.cursor.toNat + (p.toList.take s.chunk).length ≤ bufCap := by
    rw [length_take_chunk]
    exact hcap.trans (Nat.le_of_lt_succ s.cap.isLt)
  rw [receiveCf, if_pos rfl]
  exact (State.withChunk_eq s _ hle).trans <| (if_neg (Nat.not_lt.2 hcap)).trans <|
    (State.store_eq s _ _ _ hfit).trans (spendCredit_of_left _ hleft)

theorem takeChunk_cursor_toNat (p : Bytes7) (hle : s.cursor.toNat ≤ s.total.toNat) :
    (s.takeChunk p).cursor.toNat = s.cursor.toNat + s.chunk :=
  advanceChunk_cursor_toNat hle

/-- Only the last of a finite credit leaves none (R102). -/
theorem takeChunk_creditExhausted (p : Bytes7) :
    (s.takeChunk p).creditExhausted = true ↔ s.creditInf = false ∧ s.credit = 1 := by
  rw [State.creditExhausted_eq]
  refine and_congr_right fun (hinf : s.creditInf = false) => ?_
  have hcredit : (s.takeChunk p).credit = s.credit - 1 := if_neg (Bool.eq_false_iff.1 hinf)
  rw [hcredit, sub_eq_zero]

/-! ## The end of R102, row by row -/

theorem afterChunk_of_done (h : s.cursor = s.total) : afterChunk s = raiseDone s := if_pos h

theorem afterChunk_of_exhausted (h : s.cursor ≠ s.total) (hcredit : s.creditExhausted = true) :
    afterChunk s = reloadFc s := by
  rw [afterChunk, if_neg h, if_pos hcredit]

theorem afterChunk_of_left (h : s.cursor ≠ s.total) (hcredit : s.creditExhausted = false) :
    afterChunk s = emitRxReq s := by
  rw [afterChunk, if_neg h, hcredit, if_neg Bool.false_ne_true]

/-- R104 and R115: the request or the flow control is out, and the next frame is awaited. -/
theorem step_awaitsFrame {delay : Nat} {rest : List TxAnswer} (ha : s.agenda = []) (hc : s.ctrl = .txReq ∨ s.ctrl = .txFc)
    (hans : s.txAnswers = ⟨delay, true⟩ :: rest) :
    step s = .next (awaitRx .rxWait s.sess (s.withTxAnswers rest delay)) := by
  rw [step_of_blockTurn ha]
  obtain hc | hc := hc <;>
    simp only [blockStep, hc, txStep_of_ok _ hans, txOkAtTxReq, txOkAtTxFc, State.withTxAnswers_sess]

end Chunk

/-! ## The obligations -/

/-- Settles O21: whatever its row, the frame is its payload's SF, and R100 tests the length against CAP. -/
theorem singleFrameReceived : Obligations.SingleFrameReceived := by
  intro i p s _ htyped hc hs
  rw [exec_eq_execTyped, htyped]
  refine ⟨fun hover => ?_, fun hcap => execSf_eq_done hc hs hcap⟩
  exact (execSf_idle hc hs p).trans (if_pos hover)

/-- Settles O23: R101 tests the total against CAP, and `EncodeFC` lays out the FC that is written out here. -/
theorem firstFrameReceived : Obligations.FirstFrameReceived := by
  intro i total p s _ htyped hc hs f d
  rw [exec_eq_execTyped, htyped]
  refine ⟨fun hover => ?_, fun hcap => execFf_eq_first hc hs hcap p⟩
  exact (execFf_idle hc hs total p).trans (if_pos hover)

/-- Settles O24: by the checks of R102 in their order, and then by the rows of its end. -/
theorem consecutiveFrameReceived : Obligations.ConsecutiveFrameReceived := by
  intro seq p s hc hs
  have hexec : exec (.cf seq p) s = receiveCf seq p s := execCf_awaitCons hc hs seq p
  refine ⟨fun hne => hexec.trans (if_neg hne), ?_⟩
  intro hseq hle hcredit n f fc s1
  subst hseq
  refine ⟨fun hover => hexec.trans (receiveCf_of_guard p hle hover), fun hcap => ?_⟩
  have htaken : exec (.cf s.seq p) s = .next (afterChunk s1) :=
    hexec.trans (receiveCf_of_room p hle ((creditLeft_iff s).2 hcredit) hcap)
  have hcursor : s1.cursor.toNat = s.cursor.toNat + n := takeChunk_cursor_toNat p hle
  refine ⟨fun hlast => ?done, fun hmore => ?more⟩
  case done =>
    have hdone : s1.cursor = s1.total := BitVec.eq_of_toNat_eq (hcursor.trans hlast)
    exact htaken.trans (congrArg _ (afterChunk_of_done hdone))
  case more =>
    have hne : s1.cursor ≠ s1.total := cursor_ne_total (hcursor.trans_lt hmore)
    have hspent : s1.creditExhausted = true ↔ s.creditInf = false ∧ s.credit = 1 := takeChunk_creditExhausted p
    refine ⟨fun hinf hone => ?reload, fun hleft => ?next⟩
    case reload => exact htaken.trans (congrArg _ (afterChunk_of_exhausted hne (hspent.2 ⟨hinf, hone⟩)))
    case next =>
      have hsome : s1.creditExhausted = false := by
        rw [← Bool.not_eq_true, hspent, not_and_or, Bool.not_eq_false]
        exact hleft
      exact htaken.trans (congrArg _ (afterChunk_of_left hne hsome))

/-- Settles O25: by the typed frame. -/
theorem unexpectedAtRxWait : Obligations.UnexpectedAtRxWait := by
  intro i s hlegal hc
  rw [exec_eq_execTyped]
  cases htyped : i.typed with
  | sf p => exact ⟨fun _ hsf _ => absurd rfl (hsf p), fun hs _ => execSf_awaitCons hc hs p⟩
  | ff total p => exact ⟨fun _ _ hff => absurd rfl (hff total p), fun hs _ => execFf_awaitCons hc hs total p⟩
  | cf seq p => exact ⟨fun hs _ _ => execCf_idle hc hs seq p, fun _ hcf => absurd rfl (hcf seq p)⟩
  | fc fs bs stmin =>
    exact ⟨fun hs _ _ => execTyped_fc_rxWait hc (.inl hs) fs bs stmin,
      fun hs _ => execTyped_fc_rxWait hc (.inr hs) fs bs stmin⟩
  | invalid => exact absurd htyped hlegal

/-- Settles O36: the rules of the two transmit points are one. -/
theorem txOkStartsReceive : Obligations.TxOkStartsReceive := by
  intro delay rest s ha hans hc
  exact step_awaitsFrame ha hc hans

end Sys2Proof.Machine
end

section
/-! O58: the receiver of a message of 8 bytes or more (R101 to R104, R106 item 2). `State.AwaitsCf` is the session whenever it
awaits a CF; `State.AwaitsCf.takesChunk` says what the next CF does to it, and O58 is an induction on the frames that the link
still holds. -/

namespace Sys2Proof.Machine

/-! ## Runs, and what the environment holds -/

/-- Some number of steps leads from `s` to `t`. -/
def Reaches (s t : State) : Prop := ∃ n, Sys2Proof.core.run n s = .next t

/-- The link answers the next waits with the frames `fs`, whatever the delays, and holds `rest` after them. -/
def State.LinkHolds (fs : List Frame) (rest : List LinkAnswer) (s : State) : Prop :=
  ∃ answers, s.link = answers ++ rest ∧ answers.map (·.event) = fs.map (.frame s.cfg.rxId)

/-- The next `k` transmits are answered with `TxOk`. -/
def TransmitsOk (k : Nat) (answers : List TxAnswer) : Prop := k ≤ answers.length ∧ ∀ a ∈ answers.take k, a.ok = true

section Environment
variable {s t u : State}

theorem Reaches.refl (s : State) : Reaches s s := ⟨0, rfl⟩

theorem Reaches.trans (h : Reaches s t) (h' : Reaches t u) : Reaches s u := by
  obtain ⟨m, hm⟩ := h
  obtain ⟨n, hn⟩ := h'
  exact ⟨m + n, (run_add _ n hm).trans hn⟩

theorem Reaches.of_step (h : step s = .next t) : Reaches s t := by
  have hcore : Sys2Proof.core.step s = .next t := h
  exact ⟨1, by simp only [Host.Core.run, hcore]⟩

theorem State.LinkHolds.cons {d : Frame} {fs : List Frame} {rest : List LinkAnswer} (h : s.LinkHolds (d :: fs) rest) :
    ∃ delay link, s.link = ⟨delay, .frame s.cfg.rxId d⟩ :: link ∧ (s.withLink link delay).LinkHolds fs rest := by
  obtain ⟨answers, hlink, hevents⟩ := h
  obtain ⟨⟨delay, event⟩, others, rfl, rfl, hothers⟩ := List.map_eq_cons_iff.1 hevents
  exact ⟨delay, others ++ rest, hlink, others, rfl, hothers⟩

theorem State.LinkHolds.link_eq {rest : List LinkAnswer} (h : s.LinkHolds [] rest) : s.link = rest := by
  obtain ⟨answers, hlink, hevents⟩ := h
  rw [hlink, List.map_eq_nil_iff.1 hevents, List.nil_append]

theorem TransmitsOk.append {k : Nat} {oks : List TxAnswer} (hoks : ∀ a ∈ oks, a.ok = true) (hk : k ≤ oks.length)
    (rest : List TxAnswer) : TransmitsOk k (oks ++ rest) := by
  refine ⟨by rw [List.length_append]; omega, fun a ha => hoks a ?_⟩
  rw [List.take_append_of_le_length hk] at ha
  exact List.mem_of_mem_take ha

theorem TransmitsOk.mono {k l : Nat} {answers : List TxAnswer} (h : TransmitsOk l answers) (hkl : k ≤ l) :
    TransmitsOk k answers :=
  ⟨hkl.trans h.1, fun a ha => h.2 a (List.take_subset_take_left _ hkl ha)⟩

theorem TransmitsOk.cons {k : Nat} {answers : List TxAnswer} (h : TransmitsOk (k + 1) answers) :
    ∃ delay rest, answers = ⟨delay, true⟩ :: rest ∧ TransmitsOk k rest := by
  obtain ⟨hlen, hok⟩ := h
  obtain ⟨⟨delay, ok⟩, rest, rfl⟩ := List.exists_cons_of_length_pos (Nat.zero_lt_of_lt hlen)
  rw [List.take_succ_cons, List.forall_mem_cons] at hok
  obtain ⟨rfl, hrest⟩ := hok
  exact ⟨delay, rest, rfl, Nat.le_of_succ_le_succ hlen, hrest⟩

end Environment

/-! ## The frames of a message, as the receiver reads them -/

/-- A list write behind what PBUF holds from 0 on extends it (R43, R44). -/
theorem memReadList_append {m : List Host.Cell} {n : Nat} {pre : List Byte} (h : memReadList m 0 n = some pre)
    (bytes : List Byte) : memReadList (memWriteList m n bytes) 0 (n + bytes.length) = some (pre ++ bytes) := by
  have hlen := memReadList_length h
  rw [← hlen, ← List.length_append]
  refine memReadList_eq_some fun i hi => ?_
  rw [List.length_append] at hi
  rw [Nat.zero_add, pbufReadsBackWrites m _ i bytes]
  obtain hlt | hge := Nat.lt_or_ge i pre.length
  · rw [if_neg (by omega), List.getElem?_append_left hlt, ← memRead_of_memReadList h i (hlen ▸ hlt), Nat.zero_add]
  · rw [if_pos ⟨hge, hi⟩, List.getElem?_append_right hge]

/-- A CF of at most seven bytes is read as a CF that starts with these bytes, whatever it is filled with (R78). -/
theorem typedFrame_cf (fill : Byte) (seq : Nibble) {bytes : List Byte} (h : bytes.length ≤ 7) :
    ∃ p : Bytes7, typedFrame (padded fill (joinNibbles 0x2 seq) bytes) = .cf seq p ∧
      p.toList.take bytes.length = bytes :=
  ⟨_, by rw [typedFrame_of_kind_two (kind_padded fill 0x2 seq bytes), loNibble_padded_d0], from1_padded_take _ _ _ h⟩

/-- `fs` are the CFs of the bytes from CURSOR on. -/
def State.FramesLeft (fill : Byte) (msg : List Byte) (fs : List Frame) (s : State) : Prop :=
  ∃ n, msg.length - s.cursor.toNat ≤ n ∧ fs = consecutiveFrames fill s.seq n (msg.drop s.cursor.toNat)

section Frames
variable {s : State} {fill : Byte} {msg : List Byte} {fs : List Frame}

/-- With every byte copied no frame is left. -/
theorem State.FramesLeft.eq_nil (h : s.FramesLeft fill msg fs) (hlast : s.cursor.toNat = msg.length) : fs = [] := by
  obtain ⟨n, -, rfl⟩ := h
  rw [List.drop_eq_nil_of_le hlast.ge, consecutiveFrames_nil]

/-- With bytes left the next frame carries the next chunk, and the others are those of the bytes behind it. -/
theorem State.FramesLeft.eq_cons (h : s.FramesLeft fill msg fs) (hwhole : s.total.toNat = msg.length)
    (hmore : s.cursor.toNat < msg.length) :
    ∃ gs, fs = padded fill (joinNibbles 0x2 s.seq) ((msg.drop s.cursor.toNat).take s.chunk) :: gs ∧
      ∀ u : State, u.cursor.toNat = s.cursor.toNat + s.chunk → u.seq = nextSeq s.seq → u.FramesLeft fill msg gs := by
  obtain ⟨n, hn, rfl⟩ := h
  have hchunk : s.chunk = min 7 (msg.drop s.cursor.toNat).length := by rw [State.chunk, hwhole, List.length_drop]
  obtain ⟨hpos, -, -⟩ := chunk_bounds (hmore.trans_eq hwhole.symm)
  obtain ⟨n, rfl⟩ : ∃ m, n = m + 1 := Nat.exists_eq_succ_of_ne_zero (by omega)
  have hne : msg.drop s.cursor.toNat ≠ [] := mt List.drop_eq_nil_iff.1 (Nat.not_le.2 hmore)
  refine ⟨consecutiveFrames fill (nextSeq s.seq) n (msg.drop (s.cursor.toNat + s.chunk)), ?_, fun u hcursor hseq => ?_⟩
  · rw [consecutiveFrames_succ _ _ _ hne, List.take_eq_take_min, ← hchunk,
      List.drop_eq_drop_min (l := msg.drop s.cursor.toNat), ← hchunk, List.drop_drop]
  · exact ⟨n, by omega, by rw [hcursor, hseq]⟩

end Frames

/-! ## The session between the First Frame and the last CF -/

/-- A tester's session on `msg` with the first CURSOR bytes copied, on a link that holds the frames left and then `rest`. -/
structure State.Reassembles (fill : Byte) (msg : List Byte) (rest : List LinkAnswer) (fs : List Frame) (s : State) :
    Prop where
  blockTurns : s.agenda = []
  role : s.cfg.role = .tester
  session : s.sess = .awaitCons
  whole : s.total.toNat = msg.length
  inCap : s.total.toNat ≤ s.cap.toNat
  unlimited : s.creditInf = creditInfOf s.bs
  copied : memReadList s.pbuf 0 s.cursor.toNat = some (msg.take s.cursor.toNat)
  framesLeft : s.FramesLeft fill msg fs
  linkHolds : s.LinkHolds fs rest

/-- The session at RX_WAIT with a CF to come. -/
structure State.AwaitsCf (fill : Byte) (msg : List Byte) (rest : List LinkAnswer) (fs : List Frame) (s : State) : Prop
    extends s.Reassembles fill msg rest fs where
  atRxWait : s.ctrl = .rxWait
  creditLeft : s.creditExhausted = false
  bytesLeft : s.cursor.toNat < s.total.toNat

/-- A tester whose transaction ended Done with `msg` for its host, and with `rest` left in the link. -/
structure State.HasReceived (msg : List Byte) (rest : List LinkAnswer) (s : State) : Prop where
  idle : s.ctrl = .idleCmd
  done : s.status = .done
  link : s.link = rest
  length : s.resultLen.toNat = msg.length
  payload : s.hostPayload = some msg

section Session
variable {s : State} {fill : Byte} {msg : List Byte} {rest : List LinkAnswer} {fs : List Frame} {k : Nat}

/-- A frame with RX_ID at RX_WAIT is executed by its typed frame (R113, R116). -/
theorem step_rxWait_frame {delay : Nat} {d : Frame} {link : List LinkAnswer} (ha : s.agenda = []) (hc : s.ctrl = .rxWait)
    (hlink : s.link = ⟨delay, .frame s.cfg.rxId d⟩ :: link) :
    step s = execTyped (typedFrame d) (s.withLink link delay) := by
  rw [stepRunsDecodedFrame delay d link .response s ha hlink (by rw [hc]; rfl), exec_eq_execTyped, decode_typed]
  rfl

/-- R102 on the next chunk of the message keeps the session. -/
theorem State.Reassembles.takeChunk {gs : List Frame} (h : s.Reassembles fill msg rest fs)
    (hmore : s.cursor.toNat < s.total.toNat) {p : Bytes7}
    (hp : p.toList.take s.chunk = (msg.drop s.cursor.toNat).take s.chunk)
    (hleft : (s.takeChunk p).FramesLeft fill msg gs) {delay : Nat} {link : List LinkAnswer}
    (hlink : (s.withLink link delay).LinkHolds gs rest) :
    ((s.withLink link delay).takeChunk p).Reassembles fill msg rest gs :=
  { h with
    copied := by
      have hcursor : ((s.withLink link delay).takeChunk p).cursor.toNat = s.cursor.toNat + s.chunk :=
        takeChunk_cursor_toNat p hmore.le
      have hbytes := memReadList_append h.copied (p.toList.take s.chunk)
      rw [length_take_chunk, hp, ← List.take_add, ← hp] at hbytes
      rw [hcursor]
      exact hbytes
    framesLeft := hleft
    linkHolds := hlink }

/-- The next CF is taken, and R102 chooses its end. -/
theorem State.AwaitsCf.takesChunk (h : s.AwaitsCf fill msg rest fs) :
    ∃ d gs u, fs = d :: gs ∧ step s = .next (afterChunk u) ∧ u.Reassembles fill msg rest gs ∧ u.ctrl = .rxWait ∧
      u.txAnswers = s.txAnswers ∧ u.cursor.toNat ≤ u.total.toNat := by
  obtain ⟨-, hchunk, hle⟩ := chunk_bounds h.bytesLeft
  obtain ⟨gs, rfl, hgs⟩ := h.framesLeft.eq_cons h.whole (h.bytesLeft.trans_eq h.whole)
  obtain ⟨delay, link, hlink, hrest⟩ := h.linkHolds.cons
  have hlen : ((msg.drop s.cursor.toNat).take s.chunk).length = s.chunk := by
    rw [List.length_take, List.length_drop, ← h.whole]
    omega
  obtain ⟨p, htyped, hp⟩ := typedFrame_cf fill s.seq (hlen.trans_le hchunk)
  rw [hlen] at hp
  have hcursor := takeChunk_cursor_toNat p h.bytesLeft.le
  have hexec : execCf s.seq p (s.withLink link delay) = .next (afterChunk ((s.withLink link delay).takeChunk p)) :=
    (execCf_awaitCons (s := s.withLink link delay) h.atRxWait h.session _ p).trans
      (receiveCf_of_room (s := s.withLink link delay) p h.bytesLeft.le h.creditLeft (hle.trans h.inCap))
  refine ⟨_, gs, _, rfl, ?_, h.toReassembles.takeChunk h.bytesLeft hp (hgs _ hcursor rfl) hrest, h.atRxWait, rfl,
    hcursor.trans_le hle⟩
  rw [step_rxWait_frame h.blockTurns h.atRxWait hlink, htyped]
  exact hexec

/-- With the flow control of TX_FC transmitted the session awaits the next CF (R104). -/
theorem State.Reassembles.sendsFc (h : s.Reassembles fill msg rest fs) (hc : s.ctrl = .txFc)
    (hcredit : s.creditExhausted = false) (hmore : s.cursor.toNat < s.total.toNat)
    (hok : TransmitsOk (k + 1) s.txAnswers) :
    ∃ v, Reaches s v ∧ v.AwaitsCf fill msg rest fs ∧ TransmitsOk k v.txAnswers := by
  obtain ⟨delay, answers, hans, hok⟩ := hok.cons
  exact ⟨_, .of_step (step_awaitsFrame h.blockTurns (.inr hc) hans),
    { h with atRxWait := rfl, creditLeft := hcredit, bytesLeft := hmore }, hok⟩

/-- After a chunk that is not the last the session awaits the next CF, at once or over a new flow control (R102, R103). -/
theorem State.Reassembles.continues (h : s.Reassembles fill msg rest fs) (hc : s.ctrl = .rxWait)
    (hmore : s.cursor.toNat < s.total.toNat) (hok : TransmitsOk (k + 1) s.txAnswers) :
    ∃ v, Reaches (afterChunk s) v ∧ v.AwaitsCf fill msg rest fs ∧ TransmitsOk k v.txAnswers := by
  have hne := cursor_ne_total hmore
  cases hcredit : s.creditExhausted with
  | true =>
    rw [afterChunk_of_exhausted hne hcredit]
    have hreload : (reloadFc s).Reassembles fill msg rest fs := { h with }
    exact hreload.sendsFc rfl (creditExhausted_of_refill rfl h.unlimited) hmore hok
  | false =>
    rw [afterChunk_of_left hne hcredit]
    exact ⟨_, .refl _, { h with atRxWait := hc, creditLeft := hcredit, bytesLeft := hmore }, hok.mono (Nat.le_succ k)⟩

/-- After the last chunk the host has the whole message (R102, R123, R45). -/
theorem State.Reassembles.finishes (h : s.Reassembles fill msg rest fs) (hlast : s.cursor.toNat = s.total.toNat) :
    (afterChunk s).HasReceived msg rest := by
  have hcursor := hlast.trans h.whole
  have hlink := h.linkHolds
  rw [h.framesLeft.eq_nil hcursor] at hlink
  have hcopied := h.copied
  rw [hlast, h.whole, List.take_length] at hcopied
  rw [afterChunk_of_done (BitVec.eq_of_toNat_eq hlast)]
  exact {
    idle := by rw [raiseDone_ctrl, if_pos h.role]
    done := raiseDone_status s
    link := (raiseDone_link s).trans hlink.link_eq
    length := by rw [raiseDone_resultLen, if_pos h.role, h.whole]
    payload := by rw [hostPayload_raiseDone h.role, h.whole, hcopied] }

/-- The frames left complete the message, given a `TxOk` for each of them. -/
theorem State.AwaitsCf.completes (h : s.AwaitsCf fill msg rest fs) (hok : TransmitsOk fs.length s.txAnswers) :
    ∃ t, Reaches s t ∧ t.HasReceived msg rest := by
  induction fs generalizing s with
  | nil =>
    obtain ⟨d, gs, u, hfs, -⟩ := h.takesChunk
    cases hfs
  | cons d fs ih =>
    obtain ⟨d, gs, u, hfs, hstep, hu, hc, hans, hle⟩ := h.takesChunk
    cases hfs
    rw [List.length_cons, ← hans] at hok
    obtain hlast | hmore := hle.eq_or_lt
    · exact ⟨_, .of_step hstep, hu.finishes hlast⟩
    · obtain ⟨v, hreach, hv, hvok⟩ := hu.continues hc hmore hok
      obtain ⟨t, hreach', ht⟩ := ih hv hvok
      exact ⟨t, (Reaches.of_step hstep).trans (hreach.trans hreach'), ht⟩

/-- R101 as a step. -/
theorem step_firstFrame {delay : Nat} {link : List LinkAnswer} {total : Len} {p : Bytes6} (ha : s.agenda = [])
    (hc : s.ctrl = .rxWait) (hs : s.sess = .idle) (hlong : 8 ≤ total.toNat) (hcap : total.toNat ≤ s.cap.toNat)
    (hlink : s.link = ⟨delay, .frame s.cfg.rxId (ffFrame total p)⟩ :: link) :
    step s = .next (emitTx .txFc (encodeFC s.cfg.fill .cts s.cfg.rxBs s.cfg.rxStmin)
      (beginReceive total ((s.withLink link delay).writePbuf 0 p.toList))) := by
  have htyped : typedFrame (ffFrame total p) = .ff total p :=
    typedFrame_encode s.cfg.fill (i := .ff total p) (decide_eq_true hlong)
  rw [step_rxWait_frame ha hc hlink, htyped]
  exact execFf_eq_first (s := s.withLink link delay) hc hs hcap p

end Session

/-- Settles O58: R101 starts a session on the message, its flow control is transmitted, and the frames left complete the
message. -/
theorem receiverReassemblesMessage : Obligations.ReceiverReassemblesMessage := by
  intro fill msg answers rest oks restTx s ha hrole hc hs h8 hcap hlink hevents hans hoks hlen
  have htotal : (BitVec.ofNat 12 msg.length).toNat = msg.length := by
    rw [BitVec.toNat_ofNat]
    omega
  have hok : TransmitsOk (messageFrames fill msg).length s.txAnswers := hans ▸ .append hoks hlen restTx
  match msg, h8 with
  | p0 :: p1 :: p2 :: p3 :: p4 :: p5 :: tail, h8 =>
    have hholds : s.LinkHolds (messageFrames fill (p0 :: p1 :: p2 :: p3 :: p4 :: p5 :: tail)) rest :=
      ⟨answers, hlink, hevents⟩
    obtain ⟨delay, link, hfirst, hholds⟩ := hholds.cons
    have hstep := step_firstFrame ha hc hs (htotal.symm ▸ h8) (htotal.symm ▸ hcap) hfirst
    set s1 := emitTx .txFc (encodeFC s.cfg.fill .cts s.cfg.rxBs s.cfg.rxStmin)
      (beginReceive _ ((s.withLink link delay).writePbuf 0 _))
    have hsession : s1.Reassembles fill (p0 :: p1 :: p2 :: p3 :: p4 :: p5 :: tail) rest
        (consecutiveFrames fill 1 tail.length tail) := {
      blockTurns := ha
      role := hrole
      session := rfl
      whole := htotal
      inCap := htotal.symm ▸ hcap
      unlimited := rfl
      copied := memReadList_memWriteList s.pbuf 0 [p0, p1, p2, p3, p4, p5]
      framesLeft := ⟨tail.length, Nat.le_refl _, rfl⟩
      linkHolds := hholds }
    have hmore : s1.cursor.toNat < s1.total.toNat := (by decide : 6 < 8).trans_le (htotal.symm ▸ h8)
    obtain ⟨v, hreach, hv, hvok⟩ := hsession.sendsFc rfl (creditExhausted_of_refill rfl rfl) hmore hok
    obtain ⟨t, hreach', ht⟩ := hv.completes hvok
    obtain ⟨n, hrun⟩ := (Reaches.of_step hstep).trans (hreach.trans hreach')
    exact ⟨n, t, hrun, ht.idle, ht.done, ht.link, ht.length, ht.payload⟩

end Sys2Proof.Machine
end

section
/-! O16 to O19 and O22: the OBD dispatcher (R107 to R112). `serve_of_single`, `serve_of_first` and `serve_of_unsupported` say what R118
makes of the dispatcher's three kinds of answer; a request row at LISTEN is one of them, whatever bytes follow its PID. -/

namespace Sys2Proof.Machine

/-! ## A word on the wire (R46) -/

theorem highByte_eq_shift (v : BitVec 16) : highByte v = (v >>> 8).setWidth 8 := by
  apply BitVec.eq_of_toNat_eq
  simp [highByte, BitVec.extractLsb'_toNat]

theorem lowByte_eq_setWidth (v : BitVec 16) : lowByte v = v.setWidth 8 :=
  (BitVec.setWidth_eq_extractLsb' (by omega)).symm

/-! ## The dispatcher's answers (R107 to R112) -/

section Dispatch
variable (snap : DataSnapshot) (vin : Vector Byte 17)

theorem rpmResponse_eq :
    rpmResponse snap = ([0x41, 0x0C, (snap.rpm >>> 8).setWidth 8, snap.rpm.setWidth 8] : List Byte) := by
  rw [rpmResponse, highByte_eq_shift, lowByte_eq_setWidth]

theorem rpmResponse_length : (rpmResponse snap).length = 4 := rfl

theorem speedResponse_length : (speedResponse snap).length = 3 := rfl

theorem vinResponse_length : (vinResponse vin).length = 20 := by
  simp [vinResponse]

/-- What the First Frame of the VIN response carries (R111). -/
theorem vinResponse_take_six :
    (vinResponse vin).take 6 = ([0x49, 0x02, 0x01, vin[0], vin[1], vin[2]] : List Byte) := by
  have hthree : vin.toList.take 3 = [vin[0], vin[1], vin[2]] := by
    refine List.ext_getElem (by simp) fun i hi _ => ?_
    have : i < 3 := by simpa using hi
    interval_cases i <;> simp
  exact congrArg ([0x49, 0x02, 0x01] ++ ·) hthree

theorem dispatch_rpm : dispatch 0x01 0x0C snap vin = some (rpmResponse snap) := rfl

theorem dispatch_speed : dispatch 0x01 0x0D snap vin = some (speedResponse snap) := rfl

theorem dispatch_vin : dispatch 0x09 0x02 snap vin = some (vinResponse vin) := rfl

/-- Each pair that R107 lists is a supported one. -/
theorem dispatch_of_unsupported {service pid : Byte} (h : obdSupported service pid = false) :
    dispatch service pid snap vin = none := by
  rw [dispatch, if_neg, if_neg, if_neg]
  all_goals
    rintro ⟨rfl, rfl⟩
    cases h

end Dispatch

/-! ## Serving a request (R118) -/

section Serve
variable {service pid : Byte} {r : List Byte} {s : State}

/-- R118 up to the frame it transmits: SERVICE, PID, the response in PBUF and the head of `SEND`. -/
def State.answering (service pid : Byte) (r : List Byte) (s : State) : State :=
  beginSend (BitVec.ofNat 12 r.length) ((latchRequest service pid s).writePbuf 0 r)

theorem serve_eq_send (h : dispatch service pid s.snapshot s.cfg.vin = some r) :
    serve service pid s = send (BitVec.ofNat 12 r.length) ((latchRequest service pid s).writePbuf 0 r) := by
  have hfit : 0 + r.length ≤ bufCap := by
    have : bufCap = 4095 := rfl
    have := dispatch_length h
    omega
  simp only [serve, h, State.store_eq _ 0 r _ hfit]

/-- The length of a response in the 12-bit TOTAL. -/
theorem dispatch_length_toNat (h : dispatch service pid s.snapshot s.cfg.vin = some r) :
    (BitVec.ofNat 12 r.length).toNat = r.length := by
  have := dispatch_length h
  rw [BitVec.toNat_ofNat]
  omega

/-- A response of at most 7 bytes leaves as a Single Frame (R87, R81). -/
theorem serve_of_single (h : dispatch service pid s.snapshot s.cfg.vin = some r) (h7 : r.length ≤ 7) :
    serve service pid s = .next (emitTx .txSf (padded s.cfg.fill (joinNibbles 0x0 (BitVec.ofNat 4 r.length)) r)
      (s.answering service pid r)) := by
  have hlen := dispatch_length_toNat h
  obtain ⟨h1, -⟩ := dispatch_length h
  have hread : memReadList (memWriteList s.pbuf 0 r) 0 (BitVec.ofNat 12 r.length).toNat = some r := by
    rw [hlen]
    exact memReadList_memWriteList s.pbuf 0 r
  have hframe : encodeSF s.cfg.fill r = .frame (padded s.cfg.fill (joinNibbles 0x0 (BitVec.ofNat 4 r.length)) r) :=
    if_neg (by omega)
  rw [serve_eq_send h]
  exact (send_of_le_seven (hlen.trans_le h7) hread).trans (congrArg (transmit .txSf · _) hframe)

/-- A longer response leaves as a First Frame of its first six bytes (R87, R82). -/
theorem serve_of_first {p0 p1 p2 p3 p4 p5 : Byte} (h : dispatch service pid s.snapshot s.cfg.vin = some r)
    (h7 : 7 < r.length) (h6 : r.take 6 = [p0, p1, p2, p3, p4, p5]) :
    serve service pid s = .next (emitTx .txFf (ffFrame (BitVec.ofNat 12 r.length) ⟨p0, p1, p2, p3, p4, p5⟩)
      (s.answering service pid r)) := by
  have hlong : 7 < (BitVec.ofNat 12 r.length).toNat := h7.trans_eq (dispatch_length_toNat h).symm
  have hread : memReadList (memWriteList s.pbuf 0 r) 0 6 = some [p0, p1, p2, p3, p4, p5] :=
    (memReadList_part (memReadList_memWriteList s.pbuf 0 r) (by omega)).trans (congrArg some h6)
  rw [serve_eq_send h]
  exact (send_of_gt_seven hlong hread).trans (congrArg (transmit .txFf · _) (encodeFF_eq_frame hlong p0 p1 p2 p3 p4 p5))

/-- R112: SERVICE and PID are written, and the request is dropped. -/
theorem serve_of_unsupported (h : obdSupported service pid = false) :
    serve service pid s = .next (drop .unsupportedObd (latchRequest service pid s)) := by
  simp only [serve, dispatch_of_unsupported _ _ h]

/-- A request row at LISTEN is served by its service and PID alone (R118). -/
theorem exec_request_listen {i : Instr} {extra : List Byte} (hc : s.ctrl = .listen)
    (hi : i.typed = .sf (service :: pid :: extra)) : exec i s = serve service pid s := by
  rw [exec_eq_execTyped, hi]
  exact onReceive_listen _ _ _ hc

end Serve

/-! ## A response at the tester -/

/-- A Single Frame that CAP has room for ends a tester's transaction with its payload in the host's hands (R100, R123, R45). -/
theorem singleFrame_reachesHost {i : Instr} {p : List Byte} {s : State} (hc : s.ctrl = .rxWait) (hs : s.sess = .idle)
    (hrole : s.cfg.role = .tester) (hi : i.typed = .sf p) (hcap : p.length ≤ s.cap.toNat) :
    ∃ t, exec i s = .next t ∧ t.ctrl = .idleCmd ∧ t.status = .done ∧ t.hostPayload = some p ∧
      t.out = s.out ++ [.complete (.ok (BitVec.ofNat 12 p.length))] := by
  have hlen : (BitVec.ofNat 12 p.length).toNat = p.length := by
    rw [BitVec.toNat_ofNat]
    omega
  have hdone : (receivedSf (BitVec.ofNat 12 p.length) (s.writePbuf 0 p)).cfg.role = .tester := hrole
  refine ⟨raiseDone (receivedSf (BitVec.ofNat 12 p.length) (s.writePbuf 0 p)), ?_, ?_, raiseDone_status _, ?_, ?_⟩
  · rw [exec_eq_execTyped, hi]
    exact execSf_eq_done hc hs hcap
  · rw [raiseDone_ctrl, if_pos hdone]
  · rw [hostPayload_raiseDone hdone, receivedSf_total, receivedSf_pbuf, State.writePbuf_pbuf, hlen,
      memReadList_memWriteList]
  · rw [raiseDone_out, if_pos hdone]
    rfl

/-! ## The obligations -/

/-- Settles O16: the RPM response is four bytes, so it leaves as a Single Frame. -/
theorem rpmRequestServed : Obligations.RpmRequestServed := by
  intro extra s hc hi lo d
  have hserved := serve_of_single (dispatch_rpm s.snapshot s.cfg.vin) (by decide : 4 ≤ 7)
  rw [rpmResponse_length, rpmResponse_eq] at hserved
  exact (exec_request_listen hc rfl).trans hserved

/-- Settles O17: the speed response is three bytes, so it leaves as a Single Frame. -/
theorem speedRequestServed : Obligations.SpeedRequestServed := by
  intro extra s hc d
  have hserved := serve_of_single (dispatch_speed s.snapshot s.cfg.vin) (by decide : 3 ≤ 7)
  rw [speedResponse_length] at hserved
  exact (exec_request_listen hc rfl).trans hserved

/-- Settles O18: the VIN response is twenty bytes, so its first six leave in a First Frame. -/
theorem vinRequestServed : Obligations.VinRequestServed := by
  intro extra s hc d
  have hlong : 7 < (vinResponse s.cfg.vin).length := by rw [vinResponse_length]; decide
  have hserved := serve_of_first (dispatch_vin s.snapshot s.cfg.vin) hlong (vinResponse_take_six s.cfg.vin)
  rw [State.answering, vinResponse_length] at hserved
  exact (exec_request_listen hc rfl).trans hserved

/-- Settles O19: the dispatcher answers no unsupported pair, and a request of length 1 does not reach it. -/
theorem unsupportedRequestsDropped : Obligations.UnsupportedRequestsDropped := by
  intro service pid extra s hc
  refine ⟨fun hwf => ?other, onReceive_listen _ _ _ hc⟩
  case other =>
    obtain ⟨hother, -⟩ := (Bool.and_eq_true _ _).mp hwf
    exact (exec_request_listen hc rfl).trans (serve_of_unsupported ((Bool.not_eq_true' _).mp hother))

/-- Settles O22: each response row is the Single Frame of its response. -/
theorem responsesReachTheHost : Obligations.ResponsesReachTheHost := by
  intro rpm speed s hc hs hrole
  have hrpm : (Instr.obdRspRpm rpm).typed = .sf [0x41, 0x0C, (rpm >>> 8).setWidth 8, rpm.setWidth 8] :=
    congrArg TypedFrame.sf (rpmResponse_eq ⟨rpm, speed⟩)
  have hspeed : (Instr.obdRspSpeed speed).typed = .sf [0x41, 0x0D, speed] := rfl
  exact ⟨singleFrame_reachesHost hc hs hrole hrpm, singleFrame_reachesHost hc hs hrole hspeed⟩

end Sys2Proof.Machine
end

section
/-! O20, O13, O35 and O42: the drivers (R113, R114, R118, R119). R118 is proved by the typed frame alone, so one argument serves the
request rows and every other row; a receive point's step is its `linkStep`, whichever point it is. -/

namespace Sys2Proof.Machine

/-! ## A request frame (R118) -/

section Accept
variable {d : Frame} {p : List Byte} {service pid : Byte} {s : State}

/-- The payload `Decode` gives a Single Frame (R76). -/
theorem typedFrame_sf_payload (h : typedFrame d = .sf p) : p.length = sfLen d ∧ p = sfPayload d := by
  unfold typedFrame typedSf typedFf typedFc at h
  split_ifs at h with hkind hlen
  cases h
  exact ⟨length_sfPayload (by omega), rfl⟩

/-- In a request of length 2 or more, d[1] and d[2] are the service and the PID. -/
theorem typedFrame_sf_request (h : typedFrame d = .sf p) (h2 : 2 ≤ p.length) : ∃ extra, p = d.d1 :: d.d2 :: extra := by
  obtain ⟨hlen, rfl⟩ := typedFrame_sf_payload h
  exact sfPayload_of_two_le (h2.trans_eq hlen)

theorem acceptRequest_of_short (h : p.length < 2) : acceptRequest p s = .next (drop .unsupportedObd s) := by
  match p, h with
  | [], _ => rfl
  | [_], _ => rfl

theorem serve_of_none (h : dispatch service pid s.snapshot s.cfg.vin = none) :
    serve service pid s = .next (drop .unsupportedObd (latchRequest service pid s)) := by
  simp only [serve, h]

end Accept

/-- Settles O20: by the typed frame, then by the length of a Single Frame and the dispatcher's answer. -/
theorem requestAcceptance : Obligations.RequestAcceptance := by
  intro v d s hc
  rw [exec_eq_execTyped, decode_typed]
  cases hf : typedFrame d with
  | invalid => exact onReceive_listen _ _ _ hc
  | ff total p => exact onReceive_listen _ _ _ hc
  | cf seq p => exact onReceive_listen _ _ _ hc
  | fc fs bs stmin => cases fs <;> exact onReceive_listen _ _ _ hc
  | sf p =>
    have haccept : execTyped (.sf p) s = acceptRequest p s := onReceive_listen _ _ _ hc
    rw [haccept]
    by_cases h2 : p.length < 2
    · exact (acceptRequest_of_short h2).trans (if_pos h2).symm
    · obtain ⟨extra, rfl⟩ := typedFrame_sf_request hf (Nat.le_of_not_lt h2)
      have hserve : acceptRequest (d.d1 :: d.d2 :: extra) s = serve d.d1 d.d2 s := rfl
      rw [hserve]
      refine Eq.trans ?_ (if_neg h2).symm
      cases hr : dispatch d.d1 d.d2 ⟨s.rpm, s.speed⟩ s.cfg.vin with
      | none => exact serve_of_none hr
      | some r => exact serve_eq_send hr

/-- Settles O13: the statement is R119's own list of writes. -/
theorem dropKeepsListening : Obligations.DropKeepsListening := fun _ _ => rfl

/-! ## A host command (R114) -/

theorem clampCap_toNat (cap : Nat) : (clampCap cap).toNat = min cap 4095 := by
  rw [clampCap, BitVec.toNat_ofNat]
  exact Nat.mod_eq_of_lt ((Nat.min_le_right cap bufCap).trans_lt (by decide))

/-- The request frame that R114 writes out. -/
theorem encodeSF_pair (fill service pid : Byte) :
    encodeSF fill [service, pid] = .frame ⟨0x02, service, pid, fill, fill, fill, fill, fill⟩ := by
  have hpci : joinNibbles 0x0 (BitVec.ofNat 4 2) = 0x02 := by decide
  rw [encodeSF, if_neg (by simp)]
  exact congrArg (Encoded.frame <| padded fill · [service, pid]) hpci

/-- Settles O35: the oldest held command is the one accepted, and its capacity is clamped. -/
theorem commandAccepted : Obligations.CommandAccepted := by
  intro r rest s ha hc hhost f d
  refine ⟨clampCap r.cap, clampCap_toNat r.cap, ?_⟩
  rw [step_of_blockTurn ha]
  simp only [blockStep, hc, commandStep, hhost]
  exact congrArg (transmit .txReq · _) (encodeSF_pair s.cfg.fill r.service r.pid)

/-! ## The identifier filter (R113) -/

/-- At a receive point the block takes the link's next answer, in the point's view (R17). -/
theorem blockStep_of_receivePoint {s : State} (hc : s.ctrl = .listen ∨ s.ctrl = .rxWait ∨ s.ctrl = .awaitFc) :
    ∃ v, blockStep s = linkStep v s := by
  obtain hc | hc | hc := hc
  · exact ⟨.request, by simp only [blockStep, hc]⟩
  · exact ⟨.response, by simp only [blockStep, hc]⟩
  · exact ⟨.frame, by simp only [blockStep, hc]⟩

theorem linkStep_of_foreign {v : View} {delay : Nat} {id : CanId} {d : Frame} {rest : List LinkAnswer} {s : State}
    (hlink : s.link = ⟨delay, .frame id d⟩ :: rest) (hid : id ≠ s.cfg.rxId) :
    linkStep v s = .next (filtered (s.withLink rest delay)) := by
  simp only [linkStep, hlink]
  exact if_neg hid

/-- Settles O42: the filter stands before the decoder, so it does the same at every receive point. -/
theorem foreignFramesDropped : Obligations.ForeignFramesDropped := by
  intro delay id d rest s ha hlink hid hc
  obtain ⟨v, hv⟩ := blockStep_of_receivePoint hc
  rw [step_of_blockTurn ha, hv]
  exact linkStep_of_foreign hlink hid

end Sys2Proof.Machine
end

section
/-! O49 and O48: no rule stops where the invariant holds. `Answers` says that a rule's outcome is a next state; the receive points'
rules have it by the invariant's clauses about the session (R37), so every row has it there (O49), and with the transmit points and
the sleep, so has the block's turn on a legal environment (O48). -/

namespace Sys2Proof.Machine

/-- The outcome is a next state: no fault and no refusal (R130). -/
def Answers (r : Result) : Prop := ∃ t, r = .next t

theorem answers_next (t : State) : Answers (.next t) := ⟨t, rfl⟩

theorem Answers.of_eq {r r' : Result} (h : Answers r') (e : r = r') : Answers r := e ▸ h

/-! ## Rows at LISTEN -/

/-- Whatever the request, the dispatcher's response fits its frame, or the request is dropped (R118). -/
theorem serve_answers (service pid : Byte) (s : State) : Answers (serve service pid s) := by
  cases hr : dispatch service pid s.snapshot s.cfg.vin with
  | none => exact ⟨_, serve_of_none hr⟩
  | some r =>
    by_cases h7 : r.length ≤ 7
    · exact ⟨_, serve_of_single hr h7⟩
    · have hlen : (r.take 6).length = 6 := by
        rw [List.length_take]
        omega
      match hp : r.take 6, hlen with
      | [p0, p1, p2, p3, p4, p5], _ => exact ⟨_, serve_of_first hr (Nat.lt_of_not_le h7) hp⟩

theorem acceptRequest_answers (p : List Byte) (s : State) : Answers (acceptRequest p s) := by
  match p with
  | [] => exact answers_next _
  | [_] => exact answers_next _
  | service :: pid :: _ => exact serve_answers service pid s

/-! ## Rows at RX_WAIT -/

section RxWait
variable {s : State}

/-- R100 copies at most CAP bytes, and CAP is at most 4095. -/
theorem receiveSf_answers (p : List Byte) (s : State) : Answers (receiveSf p s) := by
  unfold receiveSf
  split
  · exact answers_next _
  · next hcap =>
    have hfit : 0 + p.length ≤ bufCap := by
      have hbuf : bufCap = 4095 := rfl
      have := s.cap.isLt
      omega
    exact ⟨_, State.store_eq s 0 p _ hfit⟩

theorem receiveFf_answers (total : Len) (p : Bytes6) (s : State) : Answers (receiveFf total p s) := by
  unfold receiveFf
  split
  · exact answers_next _
  · exact ⟨_, State.store_eq s 0 p.toList _ (by decide : 0 + 6 ≤ bufCap)⟩

/-- In a message the chunk ends inside TOTAL, so inside CAP, and there is credit for it (R37 items 1 and 4). -/
theorem State.Inv.receiveCf_answers (h : s.Inv) (hm : s.midReceive = true) (seq : Nibble) (p : Bytes7) :
    Answers (receiveCf seq p s) := by
  by_cases hseq : seq = s.seq
  · subst hseq
    obtain ⟨-, -, hchunk⟩ := chunk_bounds (h.inMessage (.inl hm)).notLast
    exact ⟨_, receiveCf_of_room p h.cursorInTotal (h.creditLeft (.inl hm)) (hchunk.trans (h.receiving hm).inCap)⟩
  · exact ⟨_, if_neg hseq⟩

/-- A tester that awaits a frame is between two messages or in one (R37 item 5). -/
theorem State.Inv.sess_rxWait (h : s.Inv) (hc : s.ctrl = .rxWait) : s.sess = .idle ∨ s.sess = .awaitCons := by
  simpa [hc, Ctrl.allowsState] using h.stateAgrees

theorem State.Inv.execTyped_rxWait_answers (h : s.Inv) (hc : s.ctrl = .rxWait) (f : TypedFrame) :
    Answers (execTyped f s) := by
  have hsess := h.sess_rxWait hc
  match f with
  | .sf p =>
    obtain hs | hs := hsess
    · exact (receiveSf_answers p s).of_eq (execSf_idle hc hs p)
    · exact ⟨_, execSf_awaitCons hc hs p⟩
  | .ff total p =>
    obtain hs | hs := hsess
    · exact (receiveFf_answers total p s).of_eq (execFf_idle hc hs total p)
    · exact ⟨_, execFf_awaitCons hc hs total p⟩
  | .cf seq p =>
    obtain hs | hs := hsess
    · exact ⟨_, execCf_idle hc hs seq p⟩
    · have hm : s.midReceive = true := by simp [State.midReceive, hc, hs]
      exact (h.receiveCf_answers hm seq p).of_eq (execCf_awaitCons hc hs seq p)
  | .fc fs bs stmin => exact ⟨_, execTyped_fc_rxWait hc hsess fs bs stmin⟩
  | .invalid => exact ⟨_, onReceive_rxWait _ _ _ hc⟩

end RxWait

/-! ## Every receive point -/

section Exec
variable {s : State}

theorem execTyped_listen_answers (hc : s.ctrl = .listen) (f : TypedFrame) : Answers (execTyped f s) := by
  match f with
  | .sf p => exact (acceptRequest_answers p s).of_eq (onReceive_listen _ _ _ hc)
  | .ff total p => exact ⟨_, onReceive_listen _ _ _ hc⟩
  | .cf seq p => exact ⟨_, onReceive_listen _ _ _ hc⟩
  | .fc fs bs stmin => cases fs <;> exact ⟨_, onReceive_listen _ _ _ hc⟩
  | .invalid => exact ⟨_, onReceive_listen _ _ _ hc⟩

theorem execTyped_awaitFc_answers (hc : s.ctrl = .awaitFc) (f : TypedFrame) : Answers (execTyped f s) := by
  match f with
  | .sf p => exact ⟨_, onReceive_awaitFc _ _ _ hc⟩
  | .ff total p => exact ⟨_, onReceive_awaitFc _ _ _ hc⟩
  | .cf seq p => exact ⟨_, onReceive_awaitFc _ _ _ hc⟩
  | .fc fs bs stmin => cases fs <;> exact ⟨_, onReceive_awaitFc _ _ _ hc⟩
  | .invalid => exact ⟨_, onReceive_awaitFc _ _ _ hc⟩

theorem State.Inv.exec_answers (h : s.Inv) (hv : s.ctrl.view ≠ none) (i : Instr) : Answers (exec i s) := by
  rw [exec_eq_execTyped]
  obtain hc | hc | hc := view_cases hv
  · exact execTyped_listen_answers hc _
  · exact h.execTyped_rxWait_answers hc _
  · exact execTyped_awaitFc_answers hc _

/-! ## The named stops -/

/-- R17: where no `RxReq` is outstanding no frame has a rule. -/
theorem onReceive_of_no_view (listen rxWait awaitFc : State → Result) (hv : s.ctrl.view = none) :
    onReceive listen rxWait awaitFc s = .refused .noReceiveOutstanding := by
  cases hc : s.ctrl <;> simp [hc, Ctrl.view] at hv <;> simp only [onReceive, hc]

theorem execTyped_of_no_view (hv : s.ctrl.view = none) (f : TypedFrame) :
    execTyped f s = .refused .noReceiveOutstanding := by
  match f with
  | .sf p => exact onReceive_of_no_view _ _ _ hv
  | .ff total p => exact onReceive_of_no_view _ _ _ hv
  | .cf seq p => exact onReceive_of_no_view _ _ _ hv
  | .fc fs bs stmin => cases fs <;> exact onReceive_of_no_view _ _ _ hv
  | .invalid => exact onReceive_of_no_view _ _ _ hv

/-- R116 has no row for a sender's STATE. -/
theorem onState_of_sending (idle awaitCons : State → Result) (hs : s.sess = .awaitFlow ∨ s.sess = .sendCons) :
    onState idle awaitCons s = .fault .stateDisagrees := by
  obtain hs | hs := hs <;> simp only [onState, hs]

theorem execTyped_of_sending (hc : s.ctrl = .rxWait) (hs : s.sess = .awaitFlow ∨ s.sess = .sendCons) {f : TypedFrame}
    (hf : f ≠ .invalid) : execTyped f s = .fault .stateDisagrees := by
  match f with
  | .sf p => exact (onReceive_rxWait _ _ _ hc).trans (onState_of_sending _ _ hs)
  | .ff total p => exact (onReceive_rxWait _ _ _ hc).trans (onState_of_sending _ _ hs)
  | .cf seq p => exact (onReceive_rxWait _ _ _ hc).trans (onState_of_sending _ _ hs)
  | .fc fs bs stmin => cases fs <;> exact (onReceive_rxWait _ _ _ hc).trans (onState_of_sending _ _ hs)
  | .invalid => exact absurd rfl hf

theorem receiveCf_of_cursor_beyond (p : Bytes7) (hbeyond : s.total.toNat < s.cursor.toNat) :
    receiveCf s.seq p s = .fault .cursorBeyondTotal :=
  (if_pos rfl).trans (if_neg (Nat.not_le.2 hbeyond))

/-- The chunk is copied, and R102 has no credit to take for it. -/
theorem receiveCf_of_exhausted (p : Bytes7) (hle : s.cursor.toNat ≤ s.total.toNat) (hcap : s.total.toNat ≤ s.cap.toNat)
    (hinf : s.creditInf = false) (hcredit : s.credit = 0) : receiveCf s.seq p s = .fault .creditUnderflow := by
  have hroom : s.cursor.toNat + s.chunk ≤ s.cap.toNat := by
    unfold State.chunk
    omega
  have hfit : s.cursor.toNat + (p.toList.take s.chunk).length ≤ bufCap := by
    rw [length_take_chunk]
    exact hroom.trans (Nat.le_of_lt_succ s.cap.isLt)
  have hspend : (advanceChunk s.chunk (s.writePbuf s.cursor.toNat (p.toList.take s.chunk))).spendCredit
      (fun u => .next (afterChunk u)) = .fault .creditUnderflow :=
    (if_neg (Bool.eq_false_iff.1 hinf)).trans (if_pos hcredit)
  rw [receiveCf, if_pos rfl]
  exact (State.withChunk_eq s _ hle).trans <| (if_neg (Nat.not_lt.2 hroom)).trans <|
    (State.store_eq s _ _ _ hfit).trans hspend

end Exec

/-- Settles O49: by the typed frame at each receive point, and by the checks of R102 in their order for its two stops. -/
theorem rowsCompleteOrStopByName : Obligations.RowsCompleteOrStopByName := by
  intro i s
  refine ⟨fun h hv => h.exec_answers hv i, fun hv => ?_, fun hc hf hs => ?_, fun p hf hc hs => ?_⟩
  · exact (exec_eq_execTyped i s).trans (execTyped_of_no_view hv _)
  · exact (exec_eq_execTyped i s).trans (execTyped_of_sending hc hs hf)
  · have hexec : exec i s = receiveCf s.seq p s := by
      rw [exec_eq_execTyped, hf]
      exact execCf_awaitCons hc hs s.seq p
    rw [hexec]
    exact ⟨receiveCf_of_cursor_beyond p, receiveCf_of_exhausted p⟩

/-! ## What the environment may deliver -/

/-- R33 and R125 for the answer to the outstanding handshake, whoever's turn it is. -/
structure State.AnswerLegal (s : State) : Prop where
  timerInTime : s.ctrl = .sleep → ∀ us rest, s.timer = us :: rest → s.sleepDue ≤ s.now + us
  timeoutAllowed : s.ctrl.view ≠ none → ∀ delay rest, s.link = ⟨delay, .timeout⟩ :: rest →
    s.cfg.hasTimeout = true ∧ s.ctrl ≠ .listen ∧ s.rxReqAt + s.cfg.nTimeoutUs ≤ s.now + delay

section Block
variable {s : State}

theorem answerLegal_of_envLegal (henv : s.envLegal = true)
    (hblock : s.agenda = [] ∨ ∃ rest, s.agenda = .block :: rest) : s.AnswerLegal := by
  constructor
  · intro hc us rest htimer
    obtain ha | ⟨turns, ha⟩ := hblock <;> simpa [State.envLegal, ha, hc, htimer] using henv
  · intro hv delay rest hlink
    have hallowed :
        (s.cfg.hasTimeout && s.ctrl != .listen && decide (s.rxReqAt + s.cfg.nTimeoutUs ≤ s.now + delay)) = true := by
      obtain ha | ⟨turns, ha⟩ := hblock <;> obtain hc | hc | hc := view_cases hv <;>
        simpa only [State.envLegal, ha, hc, hlink] using henv
    simpa [and_assoc] using hallowed

/-! ## The block's turn -/

theorem commandStep_answers (s : State) : Answers (commandStep s) := by
  unfold commandStep
  split
  · exact answers_next _
  · next r rest hhost =>
    exact ⟨_, congrArg (transmit .txReq · _) (encodeSF_pair _ r.service r.pid)⟩

/-- A transmit point stops only where its rule for `TxOk` does (R124). -/
theorem txStep_answers {txOk : State → Result} (hok : ∀ rest delay, Answers (txOk (s.withTxAnswers rest delay))) :
    Answers (txStep txOk s) := by
  unfold txStep
  split
  · exact answers_next _
  · split
    · exact hok _ _
    · exact answers_next _

/-- In a message the chunk that was sent is counted, and there is credit for it (R37 items 1 and 4). -/
theorem State.Inv.txOkAtTxCf_answers (h : s.Inv) (hc : s.ctrl = .txCf) : Answers (txOkAtTxCf s) :=
  ⟨_, (State.withChunk_eq s _ h.cursorInTotal).trans (spendCredit_of_left _ (h.creditLeft (.inr (.inr hc))))⟩

/-- The next chunk of a loaded message is loaded (R44). -/
theorem State.HasBytes.exists_chunk (h : s.HasBytes s.total.toNat) (hmore : s.cursor.toNat < s.total.toNat) :
    ∃ p, memReadList s.pbuf s.cursor.toNat s.chunk = some p := by
  obtain ⟨-, -, hle⟩ := chunk_bounds hmore
  exact Option.isSome_iff_exists.1 ((memReadList_isSome _ _ _).2 fun i hi => h _ (by omega))

theorem State.Inv.sleepDoneAtSleep_answers (h : s.Inv) (hc : s.ctrl = .sleep) : Answers (sleepDoneAtSleep s) := by
  have hmid : s.midSend = true := by simp [State.midSend, hc]
  have hmore := (h.inMessage (.inr hmid)).notLast
  obtain ⟨p, hp⟩ := (h.responding (by simp [State.inSend, hmid])).loaded.exists_chunk hmore
  exact ⟨_, sleepDoneAtSleep_of_loaded hmore hp⟩

theorem State.Inv.sleepStep_answers (h : s.Inv) (hc : s.ctrl = .sleep) (hlegal : s.AnswerLegal) :
    Answers (sleepStep s) := by
  unfold sleepStep
  split
  · exact answers_next _
  · next us rest htimer =>
    rw [if_neg (Nat.not_lt.2 (hlegal.timerInTime hc us rest htimer))]
    exact State.Inv.sleepDoneAtSleep_answers (s := s.withTimer rest us) (h.congr rfl) hc

theorem State.Inv.linkStep_answers (h : s.Inv) (hv : s.ctrl.view ≠ none) (hlegal : s.AnswerLegal) (v : View) :
    Answers (linkStep v s) := by
  unfold linkStep
  split
  · exact answers_next _
  · next delay id d rest hlink =>
    unfold frameStep
    split
    · exact State.Inv.exec_answers (s := s.withLink rest delay) (h.congr rfl) hv _
    · exact answers_next _
  · unfold rxErrStep
    split <;> exact answers_next _
  · next delay rest hlink => exact ⟨_, if_pos (hlegal.timeoutAllowed hv delay rest hlink)⟩

theorem State.Inv.blockStep_answers (h : s.Inv) (hlegal : s.AnswerLegal) : Answers (blockStep s) := by
  cases hc : s.ctrl <;> simp only [blockStep, hc]
  case idleCmd => exact commandStep_answers s
  case txReq => exact txStep_answers fun _ _ => answers_next _
  case rxWait => exact h.linkStep_answers (by simp [hc, Ctrl.view]) hlegal _
  case txFc => exact txStep_answers fun _ _ => answers_next _
  case listen => exact h.linkStep_answers (by simp [hc, Ctrl.view]) hlegal _
  case txSf => exact txStep_answers fun _ _ => answers_next _
  case txFf => exact txStep_answers fun _ _ => answers_next _
  case awaitFc => exact h.linkStep_answers (by simp [hc, Ctrl.view]) hlegal _
  case sleep => exact h.sleepStep_answers hc hlegal
  case txCf =>
    exact txStep_answers fun rest delay =>
      State.Inv.txOkAtTxCf_answers (s := s.withTxAnswers rest delay) (h.congr rfl) hc
  case halt => exact answers_next _

end Block

/-- Settles O48: by whose turn it is; the other agents' turns answer always, and the block's on a legal environment. -/
theorem stepIsTotal : Obligations.StepIsTotal := by
  intro s h henv
  unfold step turnStep
  split
  · next ha => exact h.blockStep_answers (answerLegal_of_envLegal henv (.inl ha))
  · next rest ha =>
    have hlegal := answerLegal_of_envLegal henv (.inr ⟨rest, ha⟩)
    exact State.Inv.blockStep_answers (s := s.withAgenda rest) (h.congr rfl) { hlegal with }
  · exact answers_next _
  · exact answers_next _

end Sys2Proof.Machine
end

section
/-! O11, O12, O14, O40, O41 and O44: the ends of a session (R122, R123), and the answers of the ports that are no frames: link errors,
timeouts and the waits (R120, R124, R125, R137). A transmit point's turn is `txStep` and a receive point's is `linkStep`, whichever
point it is. -/

namespace Sys2Proof.Machine

/-! ## The ends of a session -/

/-- Settles O11: by the role. -/
theorem failEndsSession : Obligations.FailEndsSession := by
  intro k s
  constructor <;> intro hrole <;> simp only [raiseFail, hrole]

/-- Settles O12: by the role. -/
theorem doneEndsSession : Obligations.DoneEndsSession := by
  intro s
  constructor <;> intro hrole <;> simp only [raiseDone, hrole]

/-- Settles O14: the encodings are closed terms, and they compute. -/
theorem registerEncodings : Obligations.RegisterEncodings := by
  unfold Obligations.RegisterEncodings
  decide

/-! ## Answers that are no frames -/

section Ports
variable {s : State} {v : View} {delay : Nat}

/-- At a transmit point the block takes the link's next answer to a `Tx` (R17). -/
theorem blockStep_of_transmits (hc : s.ctrl.transmits = true) : ∃ txOk, blockStep s = txStep txOk s := by
  cases hs : s.ctrl <;> simp only [hs, Ctrl.transmits, Bool.false_eq_true] at hc
  case txReq => exact ⟨txOkAtTxReq, by simp only [blockStep, hs]⟩
  case txFc => exact ⟨txOkAtTxFc, by simp only [blockStep, hs]⟩
  case txSf => exact ⟨txOkAtTxSf, by simp only [blockStep, hs]⟩
  case txFf => exact ⟨txOkAtTxFf, by simp only [blockStep, hs]⟩
  case txCf => exact ⟨txOkAtTxCf, by simp only [blockStep, hs]⟩

/-- R124 at a transmit point. -/
theorem txStep_of_err {rest : List TxAnswer} (txOk : State → Result) (hans : s.txAnswers = ⟨delay, false⟩ :: rest) :
    txStep txOk s = .next (raiseFail .linkError (s.withTxAnswers rest delay)) := by
  simp only [txStep, hans, if_neg Bool.false_ne_true, fail]

theorem txStep_of_none (txOk : State → Result) (hans : s.txAnswers = []) : txStep txOk s = .next s := by
  simp only [txStep, hans, waitForAnswer]

theorem linkStep_of_err {rest : List LinkAnswer} (hlink : s.link = ⟨delay, .err⟩ :: rest) :
    linkStep v s = rxErrStep (s.withLink rest delay) := by
  simp only [linkStep, hlink]

theorem linkStep_of_timeout {rest : List LinkAnswer} (hlink : s.link = ⟨delay, .timeout⟩ :: rest) :
    linkStep v s = timeoutStep (s.withLink rest delay) := by
  simp only [linkStep, hlink]

theorem linkStep_of_none (hlink : s.link = []) : linkStep v s = .next s := by
  simp only [linkStep, hlink, waitForAnswer]

end Ports

theorem ne_listen_of_session {c : Ctrl} (h : c = .rxWait ∨ c = .awaitFc) : c ≠ .listen := by
  rintro rfl
  simp at h

/-- Settles O40: every transmit point fails alike, and R120 and R124 tell LISTEN from the other receive points. -/
theorem linkFailures : Obligations.LinkFailures := by
  intro delay s ha
  rw [step_of_blockTurn ha]
  refine ⟨fun rest hc hans => ?_, fun rest hlink => ⟨fun hc => ?_, fun hc => ?_⟩⟩
  · obtain ⟨txOk, hblock⟩ := blockStep_of_transmits hc
    exact hblock.trans (txStep_of_err txOk hans)
  · obtain ⟨v, hblock⟩ := blockStep_of_receivePoint (.inr hc)
    exact (hblock.trans (linkStep_of_err hlink)).trans (if_neg (ne_listen_of_session hc))
  · obtain ⟨v, hblock⟩ := blockStep_of_receivePoint (.inl hc)
    exact (hblock.trans (linkStep_of_err hlink)).trans (if_pos hc)

/-- Settles O41: R125's three conditions are the ones that `timeoutStep` tests. -/
theorem timeoutFailsSession : Obligations.TimeoutFailsSession := by
  intro delay rest s ha hlink
  rw [step_of_blockTurn ha]
  refine ⟨fun hc htimeout hlate => ?_, fun hv hno => ?_⟩
  · obtain ⟨v, hblock⟩ := blockStep_of_receivePoint (.inr hc)
    exact (hblock.trans (linkStep_of_timeout hlink)).trans (if_pos ⟨htimeout, ne_listen_of_session hc, hlate⟩)
  · obtain ⟨v, hblock⟩ := blockStep_of_receivePoint (view_cases hv)
    refine (hblock.trans (linkStep_of_timeout hlink)).trans (if_neg ?_)
    rintro ⟨htimeout, hne, hlate⟩
    obtain hno | hc | hearly := hno
    · exact absurd htimeout (Bool.eq_false_iff.1 hno)
    · exact hne hc
    · exact absurd hlate (Nat.not_le.2 hearly)

/-- Settles O44: by the handshake that is outstanding. -/
theorem waitsKeepEverything : Obligations.WaitsKeepEverything := by
  intro s ha
  rw [step_of_blockTurn ha]
  refine ⟨fun hc hhost => ?_, fun hc hans => ?_, fun hv hlink => ?_, fun hc htimer => ?_, fun hc => ?_⟩
  · simp only [blockStep, hc, commandStep, hhost, waitForAnswer]
  · obtain ⟨txOk, hblock⟩ := blockStep_of_transmits hc
    exact hblock.trans (txStep_of_none txOk hans)
  · obtain ⟨v, hblock⟩ := blockStep_of_receivePoint (view_cases hv)
    exact hblock.trans (linkStep_of_none hlink)
  · simp only [blockStep, hc, sleepStep, htimer, waitForAnswer]
  · simp only [blockStep, hc, waitForAnswer]

end Sys2Proof.Machine
end

section
/-! O52: failures are precise (R122, R128). `PreciseFailure` says it of a step: the moves that end in `raise Fail` or `Drop` log one
kind and write nothing of the session, and every other move logs none. -/

namespace Sys2Proof.Machine

/-- PBUF and the session registers, which a failure leaves alone (R128). -/
def State.sessionPart (s : State) :
    List Host.Cell × Direction × Len × Len × Nibble × Byte × Bool × Byte × Byte × Len × Len × TxFrame :=
  (s.pbuf, s.dir, s.total, s.cursor, s.seq, s.credit, s.creditInf, s.bs, s.stmin, s.cap, s.resultLen, s.txf)

/-- From `s` to `t` the failure `k` is recorded, and nothing of the session is written but STATE; at LISTEN there is no session, and
SERVICE and PID may be the request's (R119, R122). -/
structure RecordsFailure (s : State) (k : ErrorKind) (t : State) : Prop where
  status : t.status = .failed
  failCode : t.failCode = k.code
  sess : t.sess = if s.ctrl = .listen then s.sess else .idle
  sessionPart : t.sessionPart = s.sessionPart
  request : s.ctrl ≠ .listen → t.service = s.service ∧ t.pid = s.pid

/-- Whatever failure the step from `s` to `t` logs, it records that one. -/
def PreciseFailure (s t : State) : Prop := ∀ k, Output.log k ∈ emitted s t → RecordsFailure s k t

section Steps
variable {s t u : State}

/-- A step that logs nothing. -/
theorem PreciseFailure.of_silent {os : List Output} (hout : t.out = s.out ++ os) (hos : ∀ k, Output.log k ∉ os) :
    PreciseFailure s t := by
  intro k hk
  rw [emitted_of_out hout] at hk
  exact absurd hk (hos k)

/-- A step that logs one failure, before an output of another kind. -/
theorem PreciseFailure.of_log {k : ErrorKind} {o : Output} (hout : t.out = s.out ++ [.log k, o])
    (ho : ∀ k', o ≠ .log k') (h : RecordsFailure s k t) : PreciseFailure s t := by
  intro k' hk'
  rw [emitted_of_out hout, List.mem_pair] at hk'
  obtain hk' | hk' := hk'
  · cases hk'
    exact h
  · exact absurd hk'.symm (ho k')

/-- `raise Fail` outside LISTEN, after the delivery of an answer (R122). -/
theorem raiseFail_precise (k : ErrorKind) (hc : s.ctrl ≠ .listen) (hout : u.out = s.out)
    (hsession : u.sessionPart = s.sessionPart) (hrequest : u.request = s.request) : PreciseFailure s (raiseFail k u) := by
  have hkeeps : (raiseFail k u).sessionPart = u.sessionPart := by simp [State.sessionPart]
  obtain ⟨hservice, hpid, -⟩ : u.service = s.service ∧ u.pid = s.pid ∧ u.dir = s.dir := by
    simpa [State.request] using hrequest
  refine .of_log ((raiseFail_out k u).trans (congrArg (· ++ _) hout)) (fun k' => by split <;> exact nofun) ?_
  exact {
    status := raiseFail_status k u
    failCode := raiseFail_failCode k u
    sess := by rw [raiseFail_sess, if_neg hc]
    sessionPart := hkeeps.trans hsession
    request := fun _ => ⟨(raiseFail_service k u).trans hservice, (raiseFail_pid k u).trans hpid⟩ }

/-- `Drop` at LISTEN, after SERVICE and PID were written or not (R112, R119). -/
theorem drop_precise (k : ErrorKind) (hc : s.ctrl = .listen) (hout : u.out = s.out) (hsess : u.sess = s.sess)
    (hsession : u.sessionPart = s.sessionPart) : PreciseFailure s (drop k u) :=
  .of_log (congrArg (· ++ _) hout) nofun
    ⟨rfl, rfl, by rw [if_pos hc]; exact hsess, hsession, fun hne => absurd hc hne⟩

theorem raiseDone_logs_none (hout : u.out = s.out) : PreciseFailure s (raiseDone u) :=
  .of_silent ((raiseDone_out u).trans (congrArg (· ++ _) hout)) fun k => by split <;> simp

theorem continueSend_logs_none (hout : u.out = s.out) : PreciseFailure s (continueSend u) := by
  obtain ⟨-, he⟩ | ⟨-, -, he⟩ | ⟨-, -, he⟩ := continueSend_cases u <;> rw [he]
  · exact raiseDone_logs_none hout
  · exact .of_silent (congrArg (· ++ _) hout) (by simp)
  · exact .of_silent (congrArg (· ++ _) hout) (by simp)

theorem afterChunk_logs_none (hout : u.out = s.out) : PreciseFailure s (afterChunk u) := by
  obtain ⟨-, he⟩ | ⟨-, -, he⟩ | ⟨-, -, he⟩ := afterChunk_cases u <;> rw [he]
  · exact raiseDone_logs_none hout
  · exact .of_silent (congrArg (· ++ _) hout) (by simp)
  · exact .of_silent (congrArg (· ++ _) hout) (by simp)

theorem ne_listen_of_transmits {c : Ctrl} (h : c.transmits = true) : c ≠ .listen := by
  rintro rfl
  cases h

theorem FrameEffect.precise {f : TypedFrame} (he : FrameEffect s f t) : PreciseFailure s t := by
  cases he with
  | dropped _ k hc => exact drop_precise k hc rfl rfl rfl
  | unsupported service pid extra hc => exact drop_precise (u := latchRequest service pid s) _ hc rfl rfl rfl
  | served service pid extra r d hc => exact .of_silent rfl (by simp)
  | failed _ k hc => exact raiseFail_precise k (ne_listen_of_session hc) rfl rfl rfl
  | single p hc => exact raiseDone_logs_none rfl
  | first total p hc => exact .of_silent rfl (by simp)
  | consecutive p u hc hs hle hcap hfit hu => exact afterChunk_logs_none hu.out_cfg.1
  | granted bs stmin hc => exact continueSend_logs_none rfl
  | waited bs stmin hc => exact .of_silent rfl (by simp)

theorem BlockMove.precise (hm : BlockMove s t) : PreciseFailure s t := by
  cases hm with
  | waits => exact .of_silent (List.append_nil _).symm (by simp)
  | accepted r rest d hc hhost => exact .of_silent rfl (by simp)
  | txFailed rest delay hc hans =>
    exact raiseFail_precise (u := s.withTxAnswers rest delay) _ (ne_listen_of_transmits hc) rfl rfl rfl
  | awaitsResponse rest delay hc hans => exact .of_silent rfl (by simp)
  | singleSent rest delay hc hans => exact raiseDone_logs_none rfl
  | firstSent rest delay hc hans => exact .of_silent rfl (by simp)
  | chunkSent rest delay u hc hans hle hu => exact continueSend_logs_none hu.out_cfg.1
  | slept rest us d hc htimer hdue => exact .of_silent rfl (by simp)
  | received d rest delay _ hv hlink ht =>
    have hprecise : PreciseFailure (s.withLink rest delay) t := ht.precise
    exact fun k hk => { hprecise k hk with }
  | foreign id d rest delay hv hlink hid => exact .of_silent rfl (by simp)
  | linkErrorDropped rest delay hc hlink => exact drop_precise (u := s.withLink rest delay) _ hc rfl rfl rfl
  | linkFailed k e rest delay hc hlink =>
    exact raiseFail_precise (u := s.withLink rest delay) k (ne_listen_of_session hc) rfl rfl rfl

/-- A reset logs nothing (R138). -/
theorem bootFrom_precise (s : State) (linkOk : Bool) : PreciseFailure s (s.bootFrom linkOk) := by
  unfold State.bootFrom
  split
  · exact .of_silent (List.append_nil _).symm (by simp)
  · exact .of_silent (List.append_nil _).symm (by simp)
  · exact .of_silent rfl (by simp)

theorem step_precise (h : step s = .next t) : PreciseFailure s t := by
  obtain ⟨-, hb⟩ | ⟨rest, -, hb⟩ | ⟨rpm, speed, rest, -, rfl⟩ | ⟨linkOk, rest, -, rfl⟩ := step_cases h
  · exact (blockStep_move hb).precise
  · have hprecise : PreciseFailure (s.withAgenda rest) t := (blockStep_move hb).precise
    exact fun k hk => { hprecise k hk with }
  · exact .of_silent (List.append_nil _).symm (by simp)
  · have hprecise := bootFrom_precise (s.withAgenda rest) linkOk
    exact fun k hk => { hprecise k hk with }

end Steps

/-- Settles O52: by whose turn the step is, and for the block's turn by its moves. -/
theorem failuresArePrecise : Obligations.FailuresArePrecise := by
  intro s t k hstep hk
  obtain ⟨hstatus, hcode, hsess, hsession, hrequest⟩ := step_precise hstep k hk
  simp only [State.sessionPart, Prod.mk.injEq] at hsession
  obtain ⟨hpbuf, hdir, htotal, hcursor, hseq, hcredit, hinf, hbs, hstmin, hcap, hresult, htxf⟩ := hsession
  exact ⟨hstatus, hcode, hsess, hpbuf, hdir, htotal, hcursor, hseq, hcredit, hinf, hbs, hstmin, hcap, hresult, htxf,
    hrequest⟩

end Sys2Proof.Machine
end

section
/-! O45: what a reset leaves (R40, R138, R139). The registers it clears and the ports it keeps are the same at every exit; which exit it
takes is the boot input's and the role's choice. -/

namespace Sys2Proof.Machine

/-- The registers that R40 calls unwritten lose their marks, and the turns that remain stay. -/
theorem bootFrom_written_agenda (s : State) (linkOk : Bool) :
    (s.bootFrom linkOk).written = Written.nothing ∧ (s.bootFrom linkOk).agenda = s.agenda := by
  unfold State.bootFrom
  split <;> exact ⟨rfl, rfl⟩

theorem bootFrom_of_noLink (s : State) : (s.bootFrom false).ctrl = .halt ∧ (s.bootFrom false).out = s.out :=
  ⟨rfl, rfl⟩

theorem bootFrom_of_tester {s : State} (hrole : s.cfg.role = .tester) :
    (s.bootFrom true).ctrl = .idleCmd ∧ (s.bootFrom true).out = s.out := by
  simp only [State.bootFrom, hrole, and_self]

theorem bootFrom_of_simulator {s : State} (hrole : s.cfg.role = .simulator) :
    (s.bootFrom true).ctrl = .listen ∧ (s.bootFrom true).out = s.out ++ [.rxReq] := by
  simp only [State.bootFrom, hrole, and_self]

theorem step_of_resetTurn {s : State} {linkOk : Bool} {rest : List Turn} (ha : s.agenda = .reset linkOk :: rest) :
    step s = .next ((s.withAgenda rest).bootFrom linkOk) := by
  simp only [step, turnStep, ha]

/-- Settles O45: the cleared registers and the kept ports first, then the three exits. -/
theorem resetLeaves : Obligations.ResetLeaves := by
  intro linkOk rest s ha
  obtain ⟨hpbuf, hcode, -, hsess, hstatus⟩ := bootFrom_regs (s.withAgenda rest) linkOk
  obtain ⟨hwritten, hagenda⟩ := bootFrom_written_agenda (s.withAgenda rest) linkOk
  have hcfg := congrArg Prod.fst (bootFrom_readOnly (s.withAgenda rest) linkOk)
  obtain ⟨hhost, hlink, -, -⟩ := ports_eq_iff.1 (bootFrom_ports (s.withAgenda rest) linkOk)
  refine ⟨_, step_of_resetTurn ha, hsess, hstatus, hcode, hwritten, hpbuf, hcfg, hhost, hlink, hagenda, ?_, ?_, ?_⟩
  · rintro rfl
    exact bootFrom_of_noLink (s.withAgenda rest)
  · rintro rfl hrole
    exact bootFrom_of_tester (s := s.withAgenda rest) hrole
  · rintro rfl hrole
    exact bootFrom_of_simulator (s := s.withAgenda rest) hrole

end Sys2Proof.Machine
end

section
/-! O55: every CF waits for the STmin delay (R98 item 4, R143). Only `Continue()` enters SLEEP, asking for the delay of the STMIN it
finds, and only `SleepDone` at SLEEP enters TX_CF; the other moves stay where they are or go to neither. -/

namespace Sys2Proof.Machine

/-- R143 for the step from `s` to `t`: SLEEP is entered with the delay of STMIN still to pass, TX_CF from SLEEP once it has. -/
def SpacedByStmin (s t : State) : Prop :=
  (s.ctrl ≠ .sleep → t.ctrl = .sleep → t.sleepDue = t.now + stminToUs t.stmin) ∧
    (s.ctrl ≠ .txCf → t.ctrl = .txCf → s.ctrl = .sleep ∧ s.sleepDue ≤ t.now)

section Steps
variable {s t u : State}

/-- A step that does not move CTRL enters neither point. -/
theorem SpacedByStmin.of_stays (h : t.ctrl = s.ctrl) : SpacedByStmin s t :=
  ⟨fun hne hsleep => absurd (h.symm.trans hsleep) hne, fun hne htx => absurd (h.symm.trans htx) hne⟩

theorem SpacedByStmin.of_elsewhere (hsleep : t.ctrl ≠ .sleep) (htx : t.ctrl ≠ .txCf) : SpacedByStmin s t :=
  ⟨fun _ hc => absurd hc hsleep, fun _ hc => absurd hc htx⟩

/-- Where no transaction is active the block neither sleeps nor transmits (R17). -/
theorem SpacedByStmin.of_rest (h : t.ctrl.inTransaction = false) : SpacedByStmin s t :=
  .of_elsewhere (fun hc => by rw [hc] at h; cases h) (fun hc => by rw [hc] at h; cases h)

theorem raiseFail_spaced (k : ErrorKind) (u : State) : SpacedByStmin s (raiseFail k u) :=
  .of_rest (by rw [raiseFail_ctrl]; split <;> rfl)

theorem raiseDone_spaced (u : State) : SpacedByStmin s (raiseDone u) :=
  .of_rest (by rw [raiseDone_ctrl]; split <;> rfl)

/-- `Continue()` sleeps for the delay of STMIN, or does not sleep (R95). -/
theorem continueSend_spaced (u : State) : SpacedByStmin s (continueSend u) := by
  obtain ⟨-, he⟩ | ⟨-, -, he⟩ | ⟨-, -, he⟩ := continueSend_cases u <;> rw [he]
  · exact raiseDone_spaced u
  · exact .of_elsewhere nofun nofun
  · exact ⟨fun _ _ => rfl, fun _ => nofun⟩

/-- The end of R102 is the receiver's: it stays at RX_WAIT, or leaves it for TX_FC or the end of the session. -/
theorem afterChunk_spaced (hc : u.ctrl = s.ctrl) : SpacedByStmin s (afterChunk u) := by
  obtain ⟨-, he⟩ | ⟨-, -, he⟩ | ⟨-, -, he⟩ := afterChunk_cases u <;> rw [he]
  · exact raiseDone_spaced u
  · exact .of_elsewhere nofun nofun
  · exact .of_stays hc

theorem FrameEffect.spaced {f : TypedFrame} (he : FrameEffect s f t) : SpacedByStmin s t := by
  cases he with
  | dropped _ k hc => exact .of_stays rfl
  | unsupported service pid extra hc => exact .of_stays rfl
  | served service pid extra r d hc h1 h20 =>
    split <;> exact .of_elsewhere nofun nofun
  | failed _ k hc => exact raiseFail_spaced k s
  | single p hc hs hcap hfit => exact raiseDone_spaced _
  | first total p hc hs hcap => exact .of_elsewhere nofun nofun
  | consecutive p u hc hs hle hcap hfit hu => exact afterChunk_spaced hu.regs.1
  | granted bs stmin hc => exact continueSend_spaced _
  | waited bs stmin hc => exact .of_stays rfl

theorem BlockMove.spaced (hm : BlockMove s t) : SpacedByStmin s t := by
  cases hm with
  | waits => exact .of_stays rfl
  | accepted r rest d hc hhost => exact .of_elsewhere nofun nofun
  | txFailed rest delay hc hans => exact raiseFail_spaced _ _
  | awaitsResponse rest delay hc hans => exact .of_elsewhere nofun nofun
  | singleSent rest delay hc hans => exact raiseDone_spaced _
  | firstSent rest delay hc hans => exact .of_elsewhere nofun nofun
  | chunkSent rest delay u hc hans hle hu => exact continueSend_spaced u
  | slept rest us d hc htimer hdue => exact ⟨fun hne => absurd hc hne, fun _ _ => ⟨hc, hdue⟩⟩
  | received d rest delay _ hv hlink ht => exact ht.spaced
  | foreign id d rest delay hv hlink hid => exact .of_stays rfl
  | linkErrorDropped rest delay hc hlink => exact .of_stays rfl
  | linkFailed k e rest delay hc hlink => exact raiseFail_spaced k _

theorem step_spaced (h : step s = .next t) : SpacedByStmin s t := by
  obtain ⟨-, hb⟩ | ⟨rest, -, hb⟩ | ⟨rpm, speed, rest, -, rfl⟩ | ⟨linkOk, rest, -, rfl⟩ := step_cases h
  · exact (blockStep_move hb).spaced
  · exact (blockStep_move hb).spaced
  · exact .of_stays rfl
  · exact .of_rest (bootFrom_ctrl (s.withAgenda rest) linkOk).1

/-- A `SleepDone` before the delay has passed (R33, log entry 10). -/
theorem sleepStep_of_early {us : Nat} {rest : List Nat} (htimer : s.timer = us :: rest)
    (hearly : s.now + us < s.sleepDue) : sleepStep s = .refused .sleepTooShort := by
  simp only [sleepStep, htimer, if_pos hearly]

end Steps

/-- Settles O55: by whose turn the step is, and for the block's turn by its moves; the refusal is `sleepStep`'s own test. -/
theorem chunksSpacedByStmin : Obligations.ChunksSpacedByStmin := by
  intro s
  refine ⟨fun _ h => step_spaced h, fun us rest ha hc htimer hearly => ?_⟩
  calc step s
    _ = blockStep s := step_of_blockTurn ha
    _ = sleepStep s := by simp only [blockStep, hc]
    _ = .refused .sleepTooShort := sleepStep_of_early htimer hearly

end Sys2Proof.Machine
end
